-- ==== Sys2Proof/Word.lean ====
section
/-! DEFINITION. The widths of the block (00_scope.md R7, R8): a byte, a host bus word, a BUF address operand. -/

namespace Sys2Proof

/-- One byte of BUF, one entry of S, one opcode (R7, R61). -/
abbrev Byte := BitVec 8

/-- One word of the 32-bit host data bus: a command word, a register as the host sees it (R7, R62). -/
abbrev Word := BitVec 32

/-- The 16-bit operands SRC, DST, LEN and KEYADDR (R7, R21). -/
abbrev Half := BitVec 16

end Sys2Proof
end

