-- ==== Sys2Proof/Config.lean ====
section
/-! DEFINITION. What an implementation fixes, and the free values of the spec (00_scope.md R7): BUF_SIZE and its
conforming values, the aperture, and the power-on draws RESET_BUF and RESET_S. -/

namespace Sys2Proof.Config

/-- BUF_SIZE where nothing else is said (R7: "default 4096"). -/
abbrev defaultBufSize : Nat := 4096

/-- R7: "any multiple of 4 with 16 <= BUF_SIZE <= 65536 is a conforming block". -/
def conformingBufSize (n : Nat) : Bool := n % 4 == 0 && 16 ≤ n && n ≤ 65536

/-- The bytes of the aperture (20_memory.md R60). -/
abbrev apertureSize : Nat := 0x20000

/-- The first offset of the BUF window (20_memory.md R60). -/
abbrev bufBase : Nat := 0x1000

/-- FREE VALUE (R7, 70_reset_and_hazards.md R230, R239, 93 X1): RESET_BUF, the byte that BUF[a] holds after the
power-on reset number `draw`, until something writes it. Log entry 4. -/
opaque resetBuf (draw a : Nat) : Byte

/-- FREE VALUE (R7, 70_reset_and_hazards.md R230, R239, 93 X1): RESET_S, the byte that S[k] holds after the
power-on reset number `draw`. The 256 bytes need not be a permutation. Log entry 4. -/
opaque resetS (draw k : Nat) : Byte

end Sys2Proof.Config
end

