-- ==== Sys2Proof/Machine/Transaction.lean ====
section
/-! DEFINITION. What arrives at the block's port (20_memory.md R62): the widths, the bus events, and the names that
the address map gives the offsets of the aperture (20_memory.md R60, 10_state.md R23). -/

namespace Sys2Proof.Machine

/-- The widths of a host transaction (20_memory.md R62). -/
inductive Width where
  | w8
  | w16
  | w32
deriving DecidableEq, Repr

/-- An offset within the aperture of 0x20000 = 2^17 bytes (20_memory.md R60, R62). -/
abbrev Offset := BitVec 17

/-- What arrives at the block, one at a time (20_memory.md R62, R74; 70_reset_and_hazards.md R230). The value of a
write of width w is bits [w-1:0] (R64). -/
inductive BusEvent where
  /-- A host read (`R<w> <offset>` of 30_encoding.md R101). -/
  | read (w : Width) (offset : Offset)
  /-- A host write (`W<w> <offset> <value>` of 30_encoding.md R101). -/
  | write (w : Width) (offset : Offset) (value : Word)
  /-- The platform asserts and releases the reset input (70_reset_and_hazards.md R230). Log entry 11. -/
  | reset
deriving DecidableEq, Repr

/-- The three regions of the aperture (20_memory.md R60). -/
inductive Region where
  | registers
  | buffer
  | unmapped
deriving DecidableEq, Repr

/-- The registers of the register space (10_state.md R23). -/
inductive Reg where
  /-- 0x000, WO (R24) -/
  | cmd
  /-- 0x004, RO (R25) -/
  | status
  /-- 0x008, RW (R26) -/
  | src
  /-- 0x00C, RW (R27) -/
  | dst
  /-- 0x010, RW (R28) -/
  | len
  /-- 0x014, RW (R29) -/
  | keyAddr
  /-- 0x018, RW (R30) -/
  | keyLen
  /-- 0x01C, RW (R31) -/
  | crc16
  /-- 0x020, RW (R32) -/
  | crc32
  /-- 0x024, RO (R33) -/
  | crc32Out
  /-- 0x028, RW (R34) -/
  | rxKey
  /-- 0x02C, RO (R35) -/
  | scij
  /-- 0x400 + 4m, RO: word m of the SBOX window (R36) -/
  | sboxWord (m : BitVec 6)
  /-- 0x030-0x3FC and 0x500-0xFFC (R37) -/
  | reserved
deriving DecidableEq, Repr

end Sys2Proof.Machine
end

