-- ==== Sys2Proof/Syntax.lean ====
section
/-! DEFINITION. The commands of the block: one constructor for each row of spec/opcode_table.json
(30_encoding.md R93). -/

namespace Sys2Proof

/-- A command (30_encoding.md R93). No command has an operand of its own: R92. -/
inductive Instr where
  /-- NOP (40_control.md R110) -/
  | nop
  /-- CLRSTAT (40_control.md R111) -/
  | clrstat
  /-- SRESET (40_control.md R112) -/
  | sreset
  /-- CRC16.INIT (41_crc16.md R121) -/
  | crc16Init
  /-- CRC16.UPDATE (41_crc16.md R122) -/
  | crc16Update
  /-- CRC16.STORE (41_crc16.md R123) -/
  | crc16Store
  /-- CRC16.CHECK (41_crc16.md R124) -/
  | crc16Check
  /-- CRC32.INIT (42_crc32.md R141) -/
  | crc32Init
  /-- CRC32.UPDATE (42_crc32.md R142) -/
  | crc32Update
  /-- CRC32.STORE (42_crc32.md R143) -/
  | crc32Store
  /-- CRC32.CHECK (42_crc32.md R144) -/
  | crc32Check
  /-- SC.SCHED (43_stream_cipher.md R164) -/
  | scSched
  /-- SC.CRYPT (43_stream_cipher.md R165) -/
  | scCrypt
  /-- RX.LOADKEY (44_rotating_xor.md R183) -/
  | rxLoadkey
  /-- RX.CRYPT (44_rotating_xor.md R184) -/
  | rxCrypt
deriving DecidableEq, Repr

end Sys2Proof
end

