-- ==== Sys2Proof/WellFormed.lean ====
section
/-! DEFINITION. Which terms are well formed: commands (30_encoding.md R92) and the statements of a host's program
(30_encoding.md R97). Which host accesses are admitted (20_memory.md R63) is Machine/Bus.lean's. -/

namespace Sys2Proof

/-- Whether a command can be written as a command word. A command has no operand (30_encoding.md R92), so every
command can. -/
def Instr.wellFormed : Instr → Bool
  | .nop | .clrstat | .sreset => true
  | .crc16Init | .crc16Update | .crc16Store | .crc16Check => true
  | .crc32Init | .crc32Update | .crc32Store | .crc32Check => true
  | .scSched | .scCrypt => true
  | .rxLoadkey | .rxCrypt => true

/-- A statement of a host's program (30_encoding.md R97). -/
inductive Stmt where
  /-- `cmd MNEMONIC` -/
  | cmd (i : Instr)
  /-- `wr CMD, v`: the raw word v, legal or not. -/
  | wrCmd (v : Word)
  /-- `wr REG, value` -/
  | wr (r : Machine.Reg) (value : Word)
  /-- `rd REG` -/
  | rd (r : Machine.Reg)
  /-- `rd SBOX[m]` -/
  | rdSbox (m : Nat)
  /-- `wb addr, b0 b1 ...` -/
  | wb (addr : Nat) (bytes : List Byte)
  /-- `ww addr, value` -/
  | ww (addr : Nat) (value : Word)
  /-- `rb addr, n` -/
  | rb (addr n : Nat)
deriving DecidableEq, Repr

/-- Whether the name stands for one register of the table of 10_state.md R23, so that `wr` and `rd` can name it.
`rd SBOX[m]` is a statement of its own, CMD is written by `cmd` and `wrCmd`, and a reserved offset has no name. -/
def Machine.Reg.named : Machine.Reg → Bool
  | .cmd | .sboxWord _ | .reserved => false
  | .status | .src | .dst | .len | .keyAddr | .keyLen => true
  | .crc16 | .crc32 | .crc32Out | .rxKey | .scij => true

/-- The checks of 30_encoding.md R97 on a statement, for a block with `bufSize` bytes of BUF. -/
def Stmt.wellFormed (bufSize : Nat) : Stmt → Bool
  | .cmd i => i.wellFormed
  | .wrCmd _ => true
  | .wr r _ => r.named
  | .rd r => r.named || r == .cmd
  | .rdSbox m => m ≤ 63
  | .wb addr bytes => addr + bytes.length ≤ bufSize
  | .ww addr _ => addr % 4 == 0 && addr + 4 ≤ bufSize
  | .rb addr n => addr + n ≤ bufSize

end Sys2Proof
end

