-- ==== Sys2Proof/Decode.lean ====
section
/-! DEFINITION. The decoder of command words (30_encoding.md R90, R93, R94), total on every word, and the encoder
(R93, R100). -/

namespace Sys2Proof

/-- Why a command word is illegal (30_encoding.md R90). Both raise ILLEGAL_CMD. -/
inductive DecodeError where
  /-- v[31:8] is not 0. -/
  | reservedBits
  /-- The OPC is not in OPCODE_MAP (R93). -/
  | unknownOpcode
deriving DecidableEq, Repr

/-- OPC, bits [7:0] of the command word (30_encoding.md R91). -/
def opcodeField (v : Word) : Byte := v.extractLsb' 0 8

/-- RSV, bits [31:8] of the command word (30_encoding.md R91). -/
def reservedField (v : Word) : BitVec 24 := v.extractLsb' 8 24

/-- OPCODE_MAP (30_encoding.md R93). All 8 bits are compared (R91). -/
def opcodeMap (opc : Byte) : Option Instr :=
  match opc.toNat with
  | 0x01 => some .nop
  | 0x02 => some .clrstat
  | 0x0F => some .sreset
  | 0x10 => some .crc16Init
  | 0x11 => some .crc16Update
  | 0x12 => some .crc16Store
  | 0x13 => some .crc16Check
  | 0x20 => some .crc32Init
  | 0x21 => some .crc32Update
  | 0x22 => some .crc32Store
  | 0x23 => some .crc32Check
  | 0x30 => some .scSched
  | 0x31 => some .scCrypt
  | 0x40 => some .rxLoadkey
  | 0x41 => some .rxCrypt
  | _ => none

/-- The decoding of a command word (30_encoding.md R90): the reserved bits first, then the opcode. -/
def decode (v : Word) : Except DecodeError Instr :=
  if reservedField v = 0 then
    match opcodeMap (opcodeField v) with
    | some i => .ok i
    | none => .error .unknownOpcode
  else .error .reservedBits

/-- The OPC of a command (30_encoding.md R93). -/
def Instr.opcode : Instr → Byte
  | .nop => 0x01
  | .clrstat => 0x02
  | .sreset => 0x0F
  | .crc16Init => 0x10
  | .crc16Update => 0x11
  | .crc16Store => 0x12
  | .crc16Check => 0x13
  | .crc32Init => 0x20
  | .crc32Update => 0x21
  | .crc32Store => 0x22
  | .crc32Check => 0x23
  | .scSched => 0x30
  | .scCrypt => 0x31
  | .rxLoadkey => 0x40
  | .rxCrypt => 0x41

/-- The command word of a command, zext_32(OPC) (30_encoding.md R93, R100). -/
def encode (i : Instr) : Word := i.opcode.zeroExtend 32

/-- The command that the decoder reads from an opcode-table row's bits. A command is exactly one 32-bit word
(30_encoding.md R95), so bits above 31 must be 0. Log entry 17. -/
def decodeTableWord (nbits w : Nat) : Option Instr :=
  let bits := w % 2 ^ nbits
  if bits < 2 ^ 32 then (decode (BitVec.ofNat 32 bits)).toOption else none

end Sys2Proof
end

