-- ==== Sys2Proof/Machine/State.lean ====
section
/-! DEFINITION. The state of the block (10_state.md R20), the reasons a step can stop, and the state after power-on
reset (10_state.md R44, 70_reset_and_hazards.md R230). -/

namespace Sys2Proof.Machine

/-- The contents of BUF (20_memory.md R61): the cells written since power-on, addresses strictly rising
(`Memory.wf`). An address that is not listed has no value written: it reads as the power-on draw
(`Memory.read`, 70_reset_and_hazards.md R239). Log entry 5. -/
abbrev Memory := List Host.Cell

/-- The substitution table S (10_state.md R38): 256 entries of 8 bits. -/
abbrev SBox := Vector Byte 256

/-- The keystream's state, S with I and J, as `prga` takes and returns it (43_stream_cipher.md R163). -/
structure Keystream where
  sbox : SBox
  i : Byte
  j : Byte
deriving DecidableEq, Repr

/-- The values of ERRCODE that are ever produced (60_exceptions.md R204). Log entry 14. -/
inductive ErrorCode where
  /-- 0: no error since the last clear -/
  | none
  /-- 1: ILLEGAL_CMD -/
  | illegalCmd
  /-- 2: RANGE -/
  | range
  /-- 3: BAD_LEN -/
  | badLen
  /-- 4: BAD_KEYLEN -/
  | badKeyLen
  /-- 5: NOT_KEYED -/
  | notKeyed
deriving DecidableEq, Repr

/-- The machine stops with a fault: never. The block has no trap and "never stops accepting commands"
(60_exceptions.md R200, R207): an error is a next state in which STATUS records it. Nothing raises a fault, so
that no constructor exists is neither safe nor unsafe. Log entry 8. -/
inductive Fault : Type
deriving DecidableEq, Repr

/-- A step is refused. The host accesses that 20_memory.md R63 refuses ("A model gives it no step"): raised by
the bus (Machine/Bus.lean), never by a command. Each is safe: the model stops where the spec gives no meaning.
Log entry 7. -/
inductive Refusal where
  /-- No meaning for the instruction yet: raised by an arm of exec only; safe. -/
  | notModelled (mnemonic : String)
  /-- A host access at an offset that is no multiple of its width in bytes (R63, R67): raised by the bus; safe. -/
  | misaligned
  /-- A host access that crosses a region boundary (R63): raised by the bus; safe. -/
  | crossesRegion
  /-- An 8- or 16-bit host access to the register space (R63, R67): raised by the bus; safe. -/
  | narrowRegisterAccess
deriving DecidableEq, Repr

/-- The state of the block (10_state.md R20), its parameter BUF_SIZE (00_scope.md R7), and the model's own record
of what arrived and what was read. -/
structure State where
  /-- BUF_SIZE (00_scope.md R7): a parameter, changed by no step. Log entry 6. -/
  bufSize : Nat
  /-- The MODEL's own: how many power-on resets came before, which picks the draws RESET_BUF and RESET_S
  (70_reset_and_hazards.md R230). Log entry 4. -/
  draw : Nat
  /-- BUF (20_memory.md R61) -/
  buf : Memory
  /-- SRC (10_state.md R26) -/
  src : Half
  /-- DST (10_state.md R27) -/
  dst : Half
  /-- LEN (10_state.md R28) -/
  len : Half
  /-- KEYADDR (10_state.md R29) -/
  keyAddr : Half
  /-- KEYLEN (10_state.md R30) -/
  keyLen : BitVec 9
  /-- CRC16 (10_state.md R31) -/
  crc16 : Half
  /-- CRC32, before the final XOR (10_state.md R32) -/
  crc32 : Word
  /-- RXKEY (10_state.md R34) -/
  rxKey : Word
  /-- S (10_state.md R38) -/
  sbox : SBox
  /-- I (10_state.md R39) -/
  scI : Byte
  /-- J (10_state.md R39) -/
  scJ : Byte
  /-- KEYED (10_state.md R40) -/
  keyed : Bool
  /-- ERR (10_state.md R25) -/
  err : Bool
  /-- ERRCODE (10_state.md R25) -/
  errCode : ErrorCode
  /-- ERROP (10_state.md R25) -/
  errOp : Byte
  /-- MATCH (10_state.md R25) -/
  matched : Bool
  /-- The MODEL's own: the events still to be served, in arrival order (20_memory.md R74, R76). Log entry 1. -/
  pending : List BusEvent
  /-- The MODEL's own: the read data put on the bus, oldest first (20_memory.md R62). Log entry 3. -/
  readData : List Word
deriving DecidableEq, Repr

/-- The state with BUF's contents replaced. -/
def State.setBuf (s : State) (m : Memory) : State := { s with buf := m }

/-- The state with SRC replaced. -/
def State.setSrc (s : State) (v : Half) : State := { s with src := v }

/-- The state with DST replaced. -/
def State.setDst (s : State) (v : Half) : State := { s with dst := v }

/-- The state with LEN replaced. -/
def State.setLen (s : State) (v : Half) : State := { s with len := v }

/-- The state with KEYADDR replaced. -/
def State.setKeyAddr (s : State) (v : Half) : State := { s with keyAddr := v }

/-- The state with KEYLEN replaced. -/
def State.setKeyLen (s : State) (v : BitVec 9) : State := { s with keyLen := v }

/-- The state with CRC16 replaced. -/
def State.setCrc16 (s : State) (v : Half) : State := { s with crc16 := v }

/-- The state with CRC32 replaced. -/
def State.setCrc32 (s : State) (v : Word) : State := { s with crc32 := v }

/-- The state with RXKEY replaced. -/
def State.setRxKey (s : State) (v : Word) : State := { s with rxKey := v }

/-- The state with S replaced. -/
def State.setSbox (s : State) (t : SBox) : State := { s with sbox := t }

/-- The state with I and J replaced. -/
def State.setIndices (s : State) (i : Byte) (j : Byte) : State := { s with scI := i, scJ := j }

/-- The state with KEYED replaced. -/
def State.setKeyed (s : State) (b : Bool) : State := { s with keyed := b }

/-- The state with ERR replaced. -/
def State.setErr (s : State) (b : Bool) : State := { s with err := b }

/-- The state with ERRCODE and ERROP replaced. -/
def State.setErrRecord (s : State) (code : ErrorCode) (op : Byte) : State := { s with errCode := code, errOp := op }

/-- The state with MATCH replaced. -/
def State.setMatched (s : State) (b : Bool) : State := { s with matched := b }

/-- The state with the events still to be served replaced. -/
def State.setPending (s : State) (l : List BusEvent) : State := { s with pending := l }

/-- The state with the read data delivered so far replaced. -/
def State.setReadData (s : State) (l : List Word) : State := { s with readData := l }
/-- The block right after the power-on reset number `draw` (the "power-on reset" column of 10_state.md R44): BUF is
the draw RESET_BUF, so nothing is listed, and S is the draw RESET_S. -/
def State.powerOn (bufSize draw : Nat) (pending : List BusEvent) (readData : List Word) : State where
  bufSize := bufSize
  draw := draw
  buf := []
  src := 0
  dst := 0
  len := 0
  keyAddr := 0
  keyLen := 0
  crc16 := 0xFFFF
  crc32 := 0xFFFFFFFF
  rxKey := 0
  sbox := Vector.ofFn fun k : Fin 256 => Config.resetS draw k
  scI := 0
  scJ := 0
  keyed := false
  err := false
  errCode := .none
  errOp := 0
  matched := false
  pending := pending
  readData := readData

/-- The machine right after reset (10_state.md R44, 70_reset_and_hazards.md R230): the first power-on reset of a
block with the default BUF_SIZE, nothing having arrived. -/
def State.reset : State := State.powerOn Config.defaultBufSize 0 [] []

end Sys2Proof.Machine
end

