-- ==== Sys2Proof/Machine/Ops.lean ====
section
/-! DEFINITION. The operations every command is made of: BUF's bytes (00_scope.md R9), the table S (R9), recording
an error and clearing it (60_exceptions.md R200, R206), and running a command behind its checks (R202, R205). -/

namespace Sys2Proof.Machine

/-- What a step of this machine answers. -/
abbrev Result := Host.Outcome State Fault Refusal

/-! ### Bytes of BUF -/

/-- The byte written at an address since power-on, or none. What an unlisted address holds is `none`: no value. -/
def Memory.lookup : Memory → Nat → Option Byte
  | [], _ => none
  | (k, b) :: rest, a => if k = a then some b else Memory.lookup rest a

/-- BUF[a] (00_scope.md R9): the byte last written, or the power-on draw (70_reset_and_hazards.md R239). -/
def Memory.read (m : Memory) (draw a : Nat) : Byte :=
  match m.lookup a with
  | some b => b
  | none => Config.resetBuf draw a

/-- BUF[a] <- b (00_scope.md R9), keeping the addresses strictly rising. -/
def Memory.write : Memory → Nat → Byte → Memory
  | [], a, b => [(a, b)]
  | (k, v) :: rest, a, b =>
    if a < k then (a, b) :: (k, v) :: rest
    else if a = k then (a, b) :: rest
    else (k, v) :: Memory.write rest a b

/-- Whether the addresses rise strictly, from `lo` on. -/
def Memory.risingFrom : Memory → Nat → Bool
  | [], _ => true
  | (a, _) :: rest, lo => lo ≤ a && Memory.risingFrom rest (a + 1)

/-- The canonical form of BUF's contents: addresses strictly rising. (An unlisted address reads as no value, and
no entry is that.) -/
def Memory.wf (m : Memory) : Bool := m.risingFrom 0

/-- Whether every listed address lies in a BUF of `n` bytes (20_memory.md R61). -/
def Memory.within (m : Memory) (n : Nat) : Bool := m.all fun c => c.1 < n

/-- MemRead(a, n) for n up to 4 (00_scope.md R9): little-endian, zero-extended to a word. -/
def Memory.readLE (m : Memory) (draw : Nat) : Nat → Nat → Word
  | _, 0 => 0
  | a, n + 1 => (m.read draw a).zeroExtend 32 ||| (Memory.readLE m draw (a + 1) n) <<< 8

/-- MemWrite(a, n, v) for n up to 4 (00_scope.md R9): bits [8k+7:8k] of v to address a+k. -/
def Memory.writeLE (m : Memory) (a : Nat) : Nat → Word → Memory
  | 0, _ => m
  | n + 1, v => Memory.writeLE (m.write a (v.extractLsb' 0 8)) (a + 1) n (v >>> 8)

/-- BUF[a] in a state. -/
def State.byte (s : State) (a : Nat) : Byte := s.buf.read s.draw a

/-- The bytes BUF[a], ..., BUF[a+n-1], in address order. -/
def State.bytes (s : State) (a n : Nat) : List Byte := (List.range n).map fun k => s.byte (a + k)

/-- MemRead(a, n) in a state (00_scope.md R9). -/
def State.load (s : State) (a n : Nat) : Word := s.buf.readLE s.draw a n

/-- MemWrite(a, n, v) in a state (00_scope.md R9). -/
def State.store (s : State) (a n : Nat) (v : Word) : State := s.setBuf (s.buf.writeLE a n v)

/-! ### The table S -/

/-- S[k] (00_scope.md R9). -/
def SBox.get (t : SBox) (k : Byte) : Byte := t[k.toNat]'k.isLt

/-- S[k] <- v. -/
def SBox.put (t : SBox) (k v : Byte) : SBox := t.set k.toNat v k.isLt

/-- swap(S[a], S[b]) (00_scope.md R9). -/
def SBox.swap (t : SBox) (a b : Byte) : SBox := (t.put a (t.get b)).put b (t.get a)

/-- S[m] <- m for every m (43_stream_cipher.md R162). -/
def SBox.identity : SBox := Vector.ofFn fun k : Fin 256 => BitVec.ofFin k

/-- S, I and J of a state. -/
def State.keystream (s : State) : Keystream := { sbox := s.sbox, i := s.scI, j := s.scJ }

/-- The state with S, I and J replaced. -/
def State.setKeystream (s : State) (c : Keystream) : State := (s.setSbox c.sbox).setIndices c.i c.j

/-! ### Errors -/

/-- `raise Error(code)` inside a command with the opcode `op` (60_exceptions.md R200): the code and the opcode are
recorded only when ERR is 0 (R201), and ERR becomes 1. That the command ends here is `runCommand`'s. -/
def raiseError (code : ErrorCode) (op : Byte) (s : State) : State :=
  (if s.err then s else s.setErrRecord code op).setErr true

/-- The return from an error (60_exceptions.md R206, 40_control.md R111): ERR, ERRCODE, ERROP and MATCH to 0. -/
def clearError (s : State) : State := ((s.setErr false).setErrRecord .none 0).setMatched false

/-- The first check that fails, in the order the command makes them (60_exceptions.md R205). -/
def firstError : List (Bool × ErrorCode) → Option ErrorCode
  | [] => none
  | (fails, code) :: rest => if fails then some code else firstError rest

/-- A command behind its checks (60_exceptions.md R202, R205): the first check that fails raises its error and ends
the command, and otherwise the command has its effect. -/
def runCommand (i : Instr) (checks : List (Bool × ErrorCode)) (effect : State → State) (s : State) : Result :=
  match firstError checks with
  | some code => .next (raiseError code i.opcode s)
  | none => .next (effect s)

/-- Power-on reset, and the reset input at any later time (70_reset_and_hazards.md R230): every piece of state to
its reset value, with a new draw of BUF and S. What is still to arrive, and what was read, is the host's. -/
def powerOnReset (s : State) : State := State.powerOn s.bufSize (s.draw + 1) s.pending s.readData

end Sys2Proof.Machine
end

