-- ==== Sys2Proof/Machine/Operands.lean ====
section
/-! DEFINITION. The operands of the commands (30_encoding.md R92): the operand registers as unsigned numbers, and
the checks a command makes on them (60_exceptions.md R203, R204). -/

namespace Sys2Proof.Machine

/-- R[SRC] (10_state.md R26), zero-extended (30_encoding.md R92). -/
abbrev State.srcAddr (s : State) : Nat := s.src.toNat

/-- R[DST] (10_state.md R27). -/
abbrev State.dstAddr (s : State) : Nat := s.dst.toNat

/-- R[LEN] (10_state.md R28). -/
abbrev State.length (s : State) : Nat := s.len.toNat

/-- R[KEYADDR] (10_state.md R29). -/
abbrev State.keyAddress (s : State) : Nat := s.keyAddr.toNat

/-- R[KEYLEN] (10_state.md R30). -/
abbrev State.keyLength (s : State) : Nat := s.keyLen.toNat

/-- The range check on n bytes of BUF from address a (60_exceptions.md R203): true when it FAILS,
a + n > BUF_SIZE on unbounded integers (00_scope.md R10 (e)). -/
def State.outOfRange (s : State) (a n : Nat) : Bool := s.bufSize < a + n

/-- The check of SC.SCHED on KEYLEN (43_stream_cipher.md R161, R164): true when it FAILS. -/
def State.badKeyLength (s : State) : Bool := s.keyLength == 0 || 256 < s.keyLength

/-- The check of RX.CRYPT on LEN (44_rotating_xor.md R184): true when it FAILS. -/
def State.badLength (s : State) : Bool := s.length % 4 != 0

/-- The key bytes of SC.SCHED (43_stream_cipher.md R160). -/
def State.keyBytes (s : State) : List Byte := s.bytes s.keyAddress s.keyLength

end Sys2Proof.Machine
end

