-- ==== Sys2Proof/Machine/Flags.lean ====
section
/-! DEFINITION. The flags: STATUS as the host reads it (10_state.md R25), the codes of ERRCODE (60_exceptions.md
R204), and the comparison behind MATCH (41_crc16.md R124, 42_crc32.md R144). -/

namespace Sys2Proof.Machine

/-- The four bits of ERRCODE (60_exceptions.md R204). -/
def ErrorCode.bits : ErrorCode → BitVec 4
  | .none => 0
  | .illegalCmd => 1
  | .range => 2
  | .badLen => 3
  | .badKeyLen => 4
  | .notKeyed => 5

/-- STATUS (10_state.md R25): ERR [0], ERRCODE [7:4], MATCH [8], KEYED [9], ERROP [23:16], every other bit 0. -/
def statusWord (s : State) : Word :=
  (BitVec.ofBool s.err).zeroExtend 32
    ||| (s.errCode.bits.zeroExtend 32) <<< 4
    ||| ((BitVec.ofBool s.matched).zeroExtend 32) <<< 8
    ||| ((BitVec.ofBool s.keyed).zeroExtend 32) <<< 9
    ||| (s.errOp.zeroExtend 32) <<< 16

/-- MATCH <- (MemRead(a, n) == v) (41_crc16.md R124, 42_crc32.md R144). -/
def setMatchFrom (a n : Nat) (v : Word) (s : State) : State := s.setMatched (s.load a n == v)

end Sys2Proof.Machine
end

