-- ==== Sys2Proof/Machine/Control.lean ====
section
/-! DEFINITION. The control commands (40_control.md). -/

namespace Sys2Proof.Machine

/-- NOP (40_control.md R110). -/
def execNop (s : State) : Result := runCommand .nop [] id s

/-- CLRSTAT (40_control.md R111). -/
def execClrstat (s : State) : Result := runCommand .clrstat [] clearError s

/-- The effect of SRESET (40_control.md R112): the SRESET column of 10_state.md R44. S and BUF are not written. -/
def softReset (s : State) : State :=
  let operands := ((((s.setSrc 0).setDst 0).setLen 0).setKeyAddr 0).setKeyLen 0
  let engines := ((operands.setCrc16 0xFFFF).setCrc32 0xFFFFFFFF).setRxKey 0
  clearError ((engines.setIndices 0 0).setKeyed false)

/-- SRESET (40_control.md R112). -/
def execSreset (s : State) : Result := runCommand .sreset [] softReset s

end Sys2Proof.Machine
end

