-- ==== Sys2Proof/Machine/Crc16.lean ====
section
/-! DEFINITION. The CRC16 engine (41_crc16.md). -/

namespace Sys2Proof.Machine

/-- One shift of crc16_byte (41_crc16.md R120). -/
def crc16Shift (c : Half) : Half := if c.getLsbD 0 then (c >>> 1) ^^^ 0xA001 else c >>> 1

/-- crc16_byte(c, b) (41_crc16.md R120): XOR into the low byte, then eight shifts. -/
def crc16Byte (c : Half) (b : Byte) : Half := crc16Shift^[8] (c ^^^ b.zeroExtend 16)

/-- crc16_seq(c, d) (41_crc16.md R120): first byte first. -/
def crc16Seq (c : Half) (d : List Byte) : Half := d.foldl crc16Byte c

/-- CRC16.INIT (41_crc16.md R121). -/
def execCrc16Init (s : State) : Result := runCommand .crc16Init [] (fun t => t.setCrc16 0xFFFF) s

/-- CRC16.UPDATE (41_crc16.md R122). -/
def execCrc16Update (s : State) : Result :=
  runCommand .crc16Update [(s.outOfRange s.srcAddr s.length, .range)]
    (fun t => t.setCrc16 (crc16Seq t.crc16 (t.bytes t.srcAddr t.length))) s

/-- CRC16.STORE (41_crc16.md R123). -/
def execCrc16Store (s : State) : Result :=
  runCommand .crc16Store [(s.outOfRange s.dstAddr 2, .range)]
    (fun t => t.store t.dstAddr 2 (t.crc16.zeroExtend 32)) s

/-- CRC16.CHECK (41_crc16.md R124): MATCH is cleared before the range check. -/
def execCrc16Check (s : State) : Result :=
  runCommand .crc16Check [(s.outOfRange s.dstAddr 2, .range)]
    (fun t => setMatchFrom t.dstAddr 2 (t.crc16.zeroExtend 32) t) (s.setMatched false)

end Sys2Proof.Machine
end

