-- ==== Sys2Proof/Machine/Crc32.lean ====
section
/-! DEFINITION. The CRC32 engine (42_crc32.md). -/

namespace Sys2Proof.Machine

/-- One shift of crc32_byte (42_crc32.md R140). -/
def crc32Shift (c : Word) : Word := if c.getLsbD 0 then (c >>> 1) ^^^ 0xEDB88320 else c >>> 1

/-- crc32_byte(c, b) (42_crc32.md R140). -/
def crc32Byte (c : Word) (b : Byte) : Word := crc32Shift^[8] (c ^^^ b.zeroExtend 32)

/-- crc32_seq(c, d) (42_crc32.md R140). -/
def crc32Seq (c : Word) (d : List Byte) : Word := d.foldl crc32Byte c

/-- The final XOR (42_crc32.md R140): what CRC32OUT reads (10_state.md R33). -/
def crc32Final (c : Word) : Word := c ^^^ 0xFFFFFFFF

/-- crc32_value(d) (42_crc32.md R140). -/
def crc32Value (d : List Byte) : Word := crc32Final (crc32Seq 0xFFFFFFFF d)

/-- CRC32.INIT (42_crc32.md R141). -/
def execCrc32Init (s : State) : Result := runCommand .crc32Init [] (fun t => t.setCrc32 0xFFFFFFFF) s

/-- CRC32.UPDATE (42_crc32.md R142). -/
def execCrc32Update (s : State) : Result :=
  runCommand .crc32Update [(s.outOfRange s.srcAddr s.length, .range)]
    (fun t => t.setCrc32 (crc32Seq t.crc32 (t.bytes t.srcAddr t.length))) s

/-- CRC32.STORE (42_crc32.md R143): the value after the final XOR. -/
def execCrc32Store (s : State) : Result :=
  runCommand .crc32Store [(s.outOfRange s.dstAddr 4, .range)]
    (fun t => t.store t.dstAddr 4 (crc32Final t.crc32)) s

/-- CRC32.CHECK (42_crc32.md R144): MATCH is cleared before the range check. -/
def execCrc32Check (s : State) : Result :=
  runCommand .crc32Check [(s.outOfRange s.dstAddr 4, .range)]
    (fun t => setMatchFrom t.dstAddr 4 (crc32Final t.crc32) t) (s.setMatched false)

end Sys2Proof.Machine
end

