-- ==== Sys2Proof/Machine/RotatingXor.lean ====
section
/-! DEFINITION. The RX engine, the 32-bit rotating-XOR cipher (44_rotating_xor.md). -/

namespace Sys2Proof.Machine

/-- rotl32(v, 1) (00_scope.md R8). -/
def rotl1 (v : Word) : Word := (v <<< 1) ||| (v >>> 31)

/-- The key integer of four key bytes (44_rotating_xor.md R180): the first byte in bits [31:24]. -/
def keyInteger (k0 k1 k2 k3 : Byte) : Word :=
  (k0.zeroExtend 32) <<< 24 ||| (k1.zeroExtend 32) <<< 16 ||| (k2.zeroExtend 32) <<< 8 ||| k3.zeroExtend 32

/-- rx_word(w, key) (44_rotating_xor.md R181): the output word and the rotated key. -/
def rxWord (w key : Word) : Word × Word := (w ^^^ key, rotl1 key)

/-- The loop of RX.CRYPT over n words (44_rotating_xor.md R182, R184), word after word (20_memory.md R81): each
word is read before it is written, and after the earlier ones were written. -/
def rxLoop (draw : Nat) : Nat → Nat → Nat → Memory → Word → Memory × Word
  | 0, _, _, m, key => (m, key)
  | n + 1, src, dst, m, key =>
    let w := m.readLE draw src 4
    let (out, key') := rxWord w key
    rxLoop draw n (src + 4) (dst + 4) (m.writeLE dst 4 out) key'

/-- The effect of RX.LOADKEY (44_rotating_xor.md R183): the only big-endian read (20_memory.md R65 (e)). -/
def loadKey (s : State) : State :=
  let a := s.keyAddress
  s.setRxKey (keyInteger (s.byte a) (s.byte (a + 1)) (s.byte (a + 2)) (s.byte (a + 3)))

/-- The effect of RX.CRYPT (44_rotating_xor.md R184). -/
def rxCryptRange (s : State) : State :=
  let (m, key) := rxLoop s.draw (s.length / 4) s.srcAddr s.dstAddr s.buf s.rxKey
  (s.setBuf m).setRxKey key

/-- RX.LOADKEY (44_rotating_xor.md R183). -/
def execRxLoadkey (s : State) : Result :=
  runCommand .rxLoadkey [(s.outOfRange s.keyAddress 4, .range)] loadKey s

/-- RX.CRYPT (44_rotating_xor.md R184). -/
def execRxCrypt (s : State) : Result :=
  runCommand .rxCrypt
    [(s.badLength, .badLen), (s.outOfRange s.srcAddr s.length, .range), (s.outOfRange s.dstAddr s.length, .range)]
    rxCryptRange s

end Sys2Proof.Machine
end

