-- ==== Sys2Proof/Machine/StreamCipher.lean ====
section
/-! DEFINITION. The SC engine, the stream cipher (43_stream_cipher.md). -/

namespace Sys2Proof.Machine

/-- Step i of the key schedule (43_stream_cipher.md R162), on the table and the local j. -/
def ksaStep (key : List Byte) (st : SBox × Byte) (i : Nat) : SBox × Byte :=
  let ib := BitVec.ofNat 8 i
  let j := st.2 + st.1.get ib + key.getD (i % key.length) 0
  (st.1.swap ib j, j)

/-- ksa(key, K) (43_stream_cipher.md R162), for i = 0, ..., 255 (90_conflicts.md C4). K is the key's length.
(Irreducible, so that no proof runs the 256 steps by accident; `unfold ksa` and the kernel still see them.) -/
@[irreducible] def ksa (key : List Byte) : SBox := ((List.range 256).foldl (ksaStep key) (SBox.identity, 0)).1

/-- prga(S, I, J) (43_stream_cipher.md R163): the new S, I and J, and the keystream byte z, read after the swap. -/
def prga (c : Keystream) : Keystream × Byte :=
  let i := c.i + 1
  let j := c.j + c.sbox.get i
  let t := c.sbox.swap i j
  ({ sbox := t, i := i, j := j }, t.get (t.get i + t.get j))

/-- The loop of SC.CRYPT over n bytes (43_stream_cipher.md R165), byte after byte (20_memory.md R81): each byte is
read before it is written, and after the earlier ones were written. -/
def scLoop (draw : Nat) : Nat → Nat → Nat → Memory → Keystream → Memory × Keystream
  | 0, _, _, m, c => (m, c)
  | n + 1, src, dst, m, c =>
    let x := m.read draw src
    let (c', z) := prga c
    scLoop draw n (src + 1) (dst + 1) (m.write dst (x ^^^ z)) c'

/-- The effect of SC.SCHED (43_stream_cipher.md R164). -/
def scheduleKey (s : State) : State :=
  ((s.setSbox (ksa s.keyBytes)).setIndices 0 0).setKeyed true

/-- The effect of SC.CRYPT (43_stream_cipher.md R165). -/
def scCryptRange (s : State) : State :=
  let (m, c) := scLoop s.draw s.length s.srcAddr s.dstAddr s.buf s.keystream
  (s.setBuf m).setKeystream c

/-- SC.SCHED (43_stream_cipher.md R164). -/
def execScSched (s : State) : Result :=
  runCommand .scSched
    [(s.badKeyLength, .badKeyLen), (s.outOfRange s.keyAddress s.keyLength, .range)] scheduleKey s

/-- SC.CRYPT (43_stream_cipher.md R165). -/
def execScCrypt (s : State) : Result :=
  runCommand .scCrypt
    [(!s.keyed, .notKeyed), (s.outOfRange s.srcAddr s.length, .range), (s.outOfRange s.dstAddr s.length, .range)]
    scCryptRange s

end Sys2Proof.Machine
end

