-- ==== Sys2Proof/Machine/Dispatch.lean ====
section
/-! DEFINITION. The meaning of every command (30_encoding.md R93). -/

namespace Sys2Proof.Machine

def exec (i : Instr) (s : State) : Host.Outcome State Fault Refusal :=
  match i with
  -- 40_control.md
  | .nop => Sys2Proof.Machine.execNop s
  | .clrstat => Sys2Proof.Machine.execClrstat s
  | .sreset => Sys2Proof.Machine.execSreset s
  -- 41_crc16.md
  | .crc16Init => Sys2Proof.Machine.execCrc16Init s
  | .crc16Update => Sys2Proof.Machine.execCrc16Update s
  | .crc16Store => Sys2Proof.Machine.execCrc16Store s
  | .crc16Check => Sys2Proof.Machine.execCrc16Check s
  -- 42_crc32.md
  | .crc32Init => Sys2Proof.Machine.execCrc32Init s
  | .crc32Update => Sys2Proof.Machine.execCrc32Update s
  | .crc32Store => Sys2Proof.Machine.execCrc32Store s
  | .crc32Check => Sys2Proof.Machine.execCrc32Check s
  -- 43_stream_cipher.md
  | .scSched => Sys2Proof.Machine.execScSched s
  | .scCrypt => Sys2Proof.Machine.execScCrypt s
  -- 44_rotating_xor.md
  | .rxLoadkey => Sys2Proof.Machine.execRxLoadkey s
  | .rxCrypt => Sys2Proof.Machine.execRxCrypt s

end Sys2Proof.Machine
end

