-- ==== Sys2Proof/Machine/Registers.lean ====
section
/-! DEFINITION. The register map (10_state.md R23-R37, R45): which register an offset names, what a host read
returns and what a host write stores. A write of CMD is the bus's (Machine/Bus.lean). -/

namespace Sys2Proof.Machine

/-- The register at an offset of the register space (10_state.md R23), a multiple of 4. -/
def regAt (off : Nat) : Reg :=
  match off with
  | 0x000 => .cmd
  | 0x004 => .status
  | 0x008 => .src
  | 0x00C => .dst
  | 0x010 => .len
  | 0x014 => .keyAddr
  | 0x018 => .keyLen
  | 0x01C => .crc16
  | 0x020 => .crc32
  | 0x024 => .crc32Out
  | 0x028 => .rxKey
  | 0x02C => .scij
  | off =>
    if 0x400 ≤ off ∧ off ≤ 0x4FC then .sboxWord (BitVec.ofNat 6 ((off - 0x400) / 4)) else .reserved

/-- Word m of the SBOX window (10_state.md R36): S[4m] in bits [7:0]. -/
def sboxWindow (t : SBox) (m : BitVec 6) : Word :=
  let entry (n : Nat) : Word := (t.get (BitVec.ofNat 8 (4 * m.toNat + n))).zeroExtend 32
  entry 0 ||| entry 1 <<< 8 ||| entry 2 <<< 16 ||| entry 3 <<< 24

/-- What a 32-bit host read of a register returns (10_state.md R45): its fields, every other bit 0. -/
def readRegister (r : Reg) (s : State) : Word :=
  match r with
  | .cmd => 0
  | .status => statusWord s
  | .src => s.src.zeroExtend 32
  | .dst => s.dst.zeroExtend 32
  | .len => s.len.zeroExtend 32
  | .keyAddr => s.keyAddr.zeroExtend 32
  | .keyLen => s.keyLen.zeroExtend 32
  | .crc16 => s.crc16.zeroExtend 32
  | .crc32 => s.crc32
  | .crc32Out => crc32Final s.crc32
  | .rxKey => s.rxKey
  | .scij => s.scI.zeroExtend 32 ||| (s.scJ.zeroExtend 32) <<< 8
  | .sboxWord m => sboxWindow s.sbox m
  | .reserved => 0

/-- What a 32-bit host write of a register stores (10_state.md R45): the field bits of the value, into an RW
register only. A write of an RO register or of a reserved offset is ignored (R37), and CMD holds nothing (R24). -/
def writeRegister (r : Reg) (v : Word) (s : State) : State :=
  match r with
  | .src => s.setSrc (v.extractLsb' 0 16)
  | .dst => s.setDst (v.extractLsb' 0 16)
  | .len => s.setLen (v.extractLsb' 0 16)
  | .keyAddr => s.setKeyAddr (v.extractLsb' 0 16)
  | .keyLen => s.setKeyLen (v.extractLsb' 0 9)
  | .crc16 => s.setCrc16 (v.extractLsb' 0 16)
  | .crc32 => s.setCrc32 v
  | .rxKey => s.setRxKey v
  | .cmd | .status | .crc32Out | .scij | .sboxWord _ | .reserved => s

end Sys2Proof.Machine
end

