-- ==== Sys2Proof/Machine/Bus.lean ====
section
/-! DEFINITION. The block's port (20_memory.md): the address map, which accesses are admitted, what a transaction
does, and the issue of a command (30_encoding.md R90). -/

namespace Sys2Proof.Machine

/-- The bytes a transaction moves (20_memory.md R62). -/
def Width.bytes : Width → Nat
  | .w8 => 1
  | .w16 => 2
  | .w32 => 4

/-- The offset of a host address in the aperture of a block at `base`, BLOCK_BASE (20_memory.md R60; 00_scope.md
R7), or none where the address is another device's. Log entry 9. -/
def apertureOffset (base addr : Nat) : Option Offset :=
  if base ≤ addr ∧ addr < base + Config.apertureSize then some (BitVec.ofNat 17 (addr - base)) else none

/-- The bits of the 32-bit data bus that hold the value of a transaction (20_memory.md R62): the byte lanes from
lane `offset mod 4` on, counting from bit 0. Log entry 13. What the lanes that a narrower access does not use carry, R62
leaves open: DESIGN CHOICE, 0 (log entry 21). -/
def toLanes (w : Width) (off : Offset) (v : Word) : Word :=
  (v &&& BitVec.ofNat 32 (2 ^ (8 * w.bytes) - 1)) <<< (8 * (off.toNat % 4))

/-- The value of a transaction, from the data bus (20_memory.md R62). Log entry 13. -/
def fromLanes (w : Width) (off : Offset) (bus : Word) : Word :=
  (bus >>> (8 * (off.toNat % 4))) &&& BitVec.ofNat 32 (2 ^ (8 * w.bytes) - 1)

/-- The region of an offset (20_memory.md R60). -/
def regionOf (bufSize off : Nat) : Region :=
  if off < Config.bufBase then .registers
  else if off < Config.bufBase + bufSize then .buffer
  else .unmapped

/-- Which host accesses are admitted (20_memory.md R63, R67): none where this one is, else why it is refused. -/
def refusalOf (bufSize : Nat) (w : Width) (off : Nat) : Option Refusal :=
  if off % w.bytes ≠ 0 then some .misaligned
  else if regionOf bufSize off ≠ regionOf bufSize (off + w.bytes - 1) then some .crossesRegion
  else if regionOf bufSize off = .registers ∧ w ≠ .w32 then some .narrowRegisterAccess
  else none

/-- The issue of the command word v (30_encoding.md R90): an illegal word raises ILLEGAL_CMD, and ERROP records
its bits [7:0] (60_exceptions.md R204). -/
def issueCommand (v : Word) (s : State) : Result :=
  match decode v with
  | .ok i => exec i s
  | .error _ => .next (raiseError .illegalCmd (opcodeField v) s)

/-- The value an admitted read returns (20_memory.md R64, R69; 10_state.md R45). -/
def readValue (w : Width) (off : Nat) (s : State) : Word :=
  match regionOf s.bufSize off with
  | .registers => readRegister (regAt off) s
  | .buffer => s.load (off - Config.bufBase) w.bytes
  | .unmapped => 0

/-- The block answers a read: the data goes to the host, and nothing else changes (20_memory.md R70). -/
def deliver (v : Word) (s : State) : State := s.setReadData (s.readData ++ [v])

/-- A host read (20_memory.md R62-R70). -/
def serveRead (w : Width) (off : Nat) (s : State) : Result :=
  match refusalOf s.bufSize w off with
  | some r => .refused r
  | none => .next (deliver (readValue w off s) s)

/-- What an admitted write does (20_memory.md R64, R69, R70; 10_state.md R24, R45). -/
def writeEffect (w : Width) (off : Nat) (v : Word) (s : State) : Result :=
  match regionOf s.bufSize off with
  | .registers => if regAt off = .cmd then issueCommand v s else .next (writeRegister (regAt off) v s)
  | .buffer => .next (s.store (off - Config.bufBase) w.bytes v)
  | .unmapped => .next s

/-- A host write (20_memory.md R62-R70). -/
def serveWrite (w : Width) (off : Nat) (v : Word) (s : State) : Result :=
  match refusalOf s.bufSize w off with
  | some r => .refused r
  | none => writeEffect w off v s

/-- The block serves one event, with all its effects (20_memory.md R74). -/
def serve (e : BusEvent) (s : State) : Result :=
  match e with
  | .read w off => serveRead w off.toNat s
  | .write w off v => serveWrite w off.toNat v s
  | .reset => .next (powerOnReset s)

/-- The block serves the event that arrived first (20_memory.md R74). With none it waits: log entry 1. -/
def serveNext (s : State) : Result :=
  match s.pending with
  | [] => .next s
  | e :: rest => serve e (s.setPending rest)

/-- The bus event by which a host issues a command word (30_encoding.md R101: `W32 0x000 <word>`). -/
def commandWrite (v : Word) : BusEvent := .write .w32 0 v

end Sys2Proof.Machine
end

