-- ==== Sys2Proof/Machine/Step.lean ====
section
/-! DEFINITION. One step of the machine: the block serves the host transaction that arrived first
(20_memory.md R74, R75). -/

namespace Sys2Proof.Machine

/-- One step: one event of the bus, or waiting for one. -/
def step (s : State) : Host.Outcome State Fault Refusal := serveNext s

/-- The state in which the next event to be served is the CMD write of an opcode-table row's word: commands come
from CMD writes, not from memory (20_memory.md R61, R79). Log entries 2 and 17. -/
def State.withFetchWord (s : State) (nbits w : Nat) : State :=
  s.setPending (commandWrite (BitVec.ofNat 32 (w % 2 ^ nbits)) :: s.pending)

end Sys2Proof.Machine
end

