-- ==== Sys2Proof/Machine/Program.lean ====
section
/-! DEFINITION. What a host's program is (30_encoding.md R97, R98, R101): the offsets of the registers, the bus
transactions of a statement, the expansion of a pseudo-instruction, and how each is written down. -/

namespace Sys2Proof.Machine

/-- The offset of a register (10_state.md R23). The reserved offsets have no name; the first of them,
0x030, stands for them: DESIGN CHOICE (log entry 23). -/
def Reg.offset : Reg → Offset
  | .cmd => 0x000
  | .status => 0x004
  | .src => 0x008
  | .dst => 0x00C
  | .len => 0x010
  | .keyAddr => 0x014
  | .keyLen => 0x018
  | .crc16 => 0x01C
  | .crc32 => 0x020
  | .crc32Out => 0x024
  | .rxKey => 0x028
  | .scij => 0x02C
  | .sboxWord m => 0x400 + 4 * m.zeroExtend 17
  | .reserved => 0x030

/-- The offset of BUF[a] in the aperture (20_memory.md R60). -/
def bufOffset (a : Nat) : Offset := BitVec.ofNat 17 (Config.bufBase + a)

/-- One 8-bit write for each byte, upward from BUF[a] (30_encoding.md R101). -/
def writeBytes : Nat → List Byte → List BusEvent
  | _, [] => []
  | a, b :: rest => .write .w8 (bufOffset a) (b.zeroExtend 32) :: writeBytes (a + 1) rest

/-- The bus transactions of a statement (30_encoding.md R101). For `rb addr, n` R101 lists no expansion, and R97 says
that n bytes are read with 8-bit reads and not in which order: DESIGN CHOICE, upward from 0x1000 + addr (log entry 22). -/
def transactions : Stmt → List BusEvent
  | .cmd i => [commandWrite (encode i)]
  | .wrCmd v => [commandWrite v]
  | .wr r v => [.write .w32 r.offset v]
  | .rd r => [.read .w32 r.offset]
  | .rdSbox m => [.read .w32 (BitVec.ofNat 17 (0x400 + 4 * m))]
  | .wb a bytes => writeBytes a bytes
  | .ww a v => [.write .w32 (bufOffset a) v]
  | .rb a n => (List.range n).map fun k => .read .w8 (bufOffset (a + k))

/-- The pseudo-instructions (30_encoding.md R98). -/
inductive Pseudo where
  | crc16 (src len : Word)
  | crc16Check (src len dst : Word)
  | crc16Store (src len dst : Word)
  | crc32 (src len : Word)
  | crc32Check (src len dst : Word)
  | crc32Store (src len dst : Word)
  | scKey (keyaddr keylen : Word)
  | scCrypt (src dst len : Word)
  | sc (keyaddr keylen src dst len : Word)
  | rxKey (keyaddr : Word)
  | rxSetkey (k : Word)
  | rxCrypt (src dst len : Word)
  | rx (keyaddr src dst len : Word)
  | clr
deriving DecidableEq, Repr

/-- `crc16 src, len` (30_encoding.md R98). -/
def crc16Stmts (src len : Word) : List Stmt :=
  [.wr .src src, .wr .len len, .cmd .crc16Init, .cmd .crc16Update]

/-- `crc32 src, len` (30_encoding.md R98). -/
def crc32Stmts (src len : Word) : List Stmt :=
  [.wr .src src, .wr .len len, .cmd .crc32Init, .cmd .crc32Update]

/-- `sc.key keyaddr, keylen` (30_encoding.md R98). -/
def scKeyStmts (keyaddr keylen : Word) : List Stmt :=
  [.wr .keyAddr keyaddr, .wr .keyLen keylen, .cmd .scSched]

/-- `rx.key keyaddr` (30_encoding.md R98). -/
def rxKeyStmts (keyaddr : Word) : List Stmt := [.wr .keyAddr keyaddr, .cmd .rxLoadkey]

/-- `sc.crypt` and `rx.crypt src, dst, len` (30_encoding.md R98). -/
def cryptStmts (i : Instr) (src dst len : Word) : List Stmt :=
  [.wr .src src, .wr .dst dst, .wr .len len, .cmd i]

/-- The expansion of a pseudo-instruction (30_encoding.md R98), which has no meaning beyond it. -/
def expand : Pseudo → List Stmt
  | .crc16 src len => crc16Stmts src len
  | .crc16Check src len dst => crc16Stmts src len ++ [.wr .dst dst, .cmd .crc16Check]
  | .crc16Store src len dst => crc16Stmts src len ++ [.wr .dst dst, .cmd .crc16Store]
  | .crc32 src len => crc32Stmts src len
  | .crc32Check src len dst => crc32Stmts src len ++ [.wr .dst dst, .cmd .crc32Check]
  | .crc32Store src len dst => crc32Stmts src len ++ [.wr .dst dst, .cmd .crc32Store]
  | .scKey keyaddr keylen => scKeyStmts keyaddr keylen
  | .scCrypt src dst len => cryptStmts .scCrypt src dst len
  | .sc keyaddr keylen src dst len => scKeyStmts keyaddr keylen ++ cryptStmts .scCrypt src dst len
  | .rxKey keyaddr => rxKeyStmts keyaddr
  | .rxSetkey k => [.wr .rxKey k]
  | .rxCrypt src dst len => cryptStmts .rxCrypt src dst len
  | .rx keyaddr src dst len => rxKeyStmts keyaddr ++ cryptStmts .rxCrypt src dst len
  | .clr => [.cmd .clrstat]

/-- The transactions of a list of statements, in order (30_encoding.md R101). -/
def programTransactions (p : List Stmt) : List BusEvent := p.flatMap transactions

/-- The machine when a program's transactions arrive, in order, after what is pending already: log entry 2. -/
def State.withProgram (s : State) (p : List Stmt) : State :=
  s.setPending (s.pending ++ programTransactions p)

/-- The mnemonic of a command (30_encoding.md R93). -/
def mnemonicOf : Instr → String
  | .nop => "NOP"
  | .clrstat => "CLRSTAT"
  | .sreset => "SRESET"
  | .crc16Init => "CRC16.INIT"
  | .crc16Update => "CRC16.UPDATE"
  | .crc16Store => "CRC16.STORE"
  | .crc16Check => "CRC16.CHECK"
  | .crc32Init => "CRC32.INIT"
  | .crc32Update => "CRC32.UPDATE"
  | .crc32Store => "CRC32.STORE"
  | .crc32Check => "CRC32.CHECK"
  | .scSched => "SC.SCHED"
  | .scCrypt => "SC.CRYPT"
  | .rxLoadkey => "RX.LOADKEY"
  | .rxCrypt => "RX.CRYPT"

/-- The name of a register in a statement (10_state.md R23). The reserved offsets have no name there: DESIGN CHOICE, the
word `reserved`, in no well-formed statement (log entry 23). -/
def Reg.text : Reg → String
  | .cmd => "CMD"
  | .status => "STATUS"
  | .src => "SRC"
  | .dst => "DST"
  | .len => "LEN"
  | .keyAddr => "KEYADDR"
  | .keyLen => "KEYLEN"
  | .crc16 => "CRC16"
  | .crc32 => "CRC32"
  | .crc32Out => "CRC32OUT"
  | .rxKey => "RXKEY"
  | .scij => "SCIJ"
  | .sboxWord m => "SBOX[" ++ toString m.toNat ++ "]"
  | .reserved => "reserved"

/-- A number in hexadecimal with at least n digits (00_scope.md R8). -/
def hex (n v : Nat) : String :=
  let digits := (Nat.toDigits 16 v).map Char.toUpper
  "0x" ++ String.ofList (List.replicate (n - digits.length) '0' ++ digits)

/-- A statement as a program writes it (30_encoding.md R97). Which spelling of a number is written, where the rule admits
several, is a DESIGN CHOICE (log entry 23). -/
def stmtText : Stmt → String
  | .cmd i => "cmd " ++ mnemonicOf i
  | .wrCmd v => "wr CMD, " ++ hex 8 v.toNat
  | .wr r v => "wr " ++ r.text ++ ", " ++ hex 1 v.toNat
  | .rd r => "rd " ++ r.text
  | .rdSbox m => "rd SBOX[" ++ toString m ++ "]"
  | .wb a bytes => "wb " ++ hex 3 a ++ "," ++ String.join (bytes.map fun b => " " ++ hex 2 b.toNat)
  | .ww a v => "ww " ++ hex 3 a ++ ", " ++ hex 8 v.toNat
  | .rb a n => "rb " ++ hex 3 a ++ ", " ++ toString n

/-- A transaction as a transaction list writes it (30_encoding.md R101). The reset input is no transaction and R101 gives
no line for it: DESIGN CHOICE, the word `reset`, which `transactionOf` does not read back (log entry 23). -/
def BusEvent.text : BusEvent → String
  | .read w off => "R" ++ toString (8 * w.bytes) ++ " " ++ hex 3 off.toNat
  | .write w off v =>
    "W" ++ toString (8 * w.bytes) ++ " " ++ hex 3 off.toNat ++ " " ++ hex (2 * w.bytes) v.toNat
  | .reset => "reset"

end Sys2Proof.Machine
end

