-- ==== Sys2Proof/Safety.lean ====
section
/-! DEFINITION. The terms the claims use: the invariant of a state (what every state of a run is), the error a
command's checks give, the bytes a command may write, the keystream by position, and two ways in which states are
alike. -/

namespace Sys2Proof.Machine

/-! ### The invariant -/

/-- S is a permutation of 0..255 (10_state.md R38): no two entries are equal. -/
def SBox.IsPermutation (t : SBox) : Prop := ∀ a b : Byte, t.get a = t.get b → a = b

/-- ERR, ERRCODE and ERROP agree (10_state.md R25): ERRCODE and ERROP are 0 when ERR is 0, and an error that is
recorded has a code. -/
def State.statusCoherent (s : State) : Bool :=
  if s.err then s.errCode != .none else s.errCode == .none && s.errOp == 0

/-- What holds of every state of a run. -/
structure State.Inv (s : State) : Prop where
  /-- BUF_SIZE is a conforming one (00_scope.md R7). -/
  conforming : Config.conformingBufSize s.bufSize = true
  /-- BUF's contents are in canonical form. -/
  canonical : s.buf.wf = true
  /-- No byte outside BUF was ever written (60_exceptions.md R203). -/
  within : s.buf.within s.bufSize = true
  /-- The status fields agree (10_state.md R25). -/
  status : s.statusCoherent = true
  /-- After an SC.SCHED, S is a permutation (10_state.md R38, R40). -/
  keyed : s.keyed = true → s.sbox.IsPermutation

/-! ### Errors -/

/-- The error a command raises in a state, by the table of 60_exceptions.md R204 and the priority of R205: none
where the command completes. -/
def expectedError (i : Instr) (s : State) : Option ErrorCode :=
  let range (a : Half) (n : Nat) : Option ErrorCode := if a.toNat + n > s.bufSize then some .range else none
  match i with
  | .nop | .clrstat | .sreset | .crc16Init | .crc32Init => none
  | .crc16Update | .crc32Update => range s.src s.len.toNat
  | .crc16Store | .crc16Check => range s.dst 2
  | .crc32Store | .crc32Check => range s.dst 4
  | .scSched =>
    if s.keyLen = 0 ∨ s.keyLen.toNat > 256 then some .badKeyLen else range s.keyAddr s.keyLen.toNat
  | .scCrypt =>
    if s.keyed = false then some .notKeyed
    else (range s.src s.len.toNat).or (range s.dst s.len.toNat)
  | .rxLoadkey => range s.keyAddr 4
  | .rxCrypt =>
    if s.len.toNat % 4 ≠ 0 then some .badLen
    else (range s.src s.len.toNat).or (range s.dst s.len.toNat)

/-- The two CHECK commands, which clear MATCH before anything else (41_crc16.md R124, 42_crc32.md R144). -/
def isCheck (i : Instr) : Bool := i == .crc16Check || i == .crc32Check

/-- The state a command that fails a check starts recording its error in. -/
def beforeError (i : Instr) (s : State) : State := if isCheck i then { s with matched := false } else s

/-! ### What a command may write -/

/-- The first address and the number of the BUF bytes a command writes when it completes (20_memory.md R72,
"writes" column; 30_encoding.md R92). -/
def storeRange (i : Instr) (s : State) : Nat × Nat :=
  match i with
  | .crc16Store => (s.dstAddr, 2)
  | .crc32Store => (s.dstAddr, 4)
  | .scCrypt | .rxCrypt => (s.dstAddr, s.length)
  | .nop | .clrstat | .sreset | .crc16Init | .crc16Update | .crc16Check => (0, 0)
  | .crc32Init | .crc32Update | .crc32Check | .scSched | .rxLoadkey => (0, 0)

/-- Every byte of BUF outside the n bytes from address a on reads in t as it reads in s. -/
def SameOutside (s t : State) (a n : Nat) : Prop := ∀ x, ¬(a ≤ x ∧ x < a + n) → t.byte x = s.byte x

/-! ### The keystream by position -/

/-- S, I and J after n keystream steps (43_stream_cipher.md R163). -/
def keystreamAfter (n : Nat) (c : Keystream) : Keystream := (fun d => (prga d).1)^[n] c

/-- The keystream byte number n, counting from 0 (43_stream_cipher.md R163). -/
def keystreamByte (n : Nat) (c : Keystream) : Byte := (prga (keystreamAfter n c)).2

/-! ### States that are alike -/

/-- The two states differ at most in which cells of BUF are listed, and every byte of BUF reads the same. -/
def ReadsAlike (s t : State) : Prop := t = { s with buf := t.buf } ∧ ∀ a, t.byte a = s.byte a

/-- The two results are the same kind of result, with states that read alike. -/
def ResultsAlike : Result → Result → Prop
  | .next s, .next t => ReadsAlike s t
  | .refused r, .refused q => r = q
  | .next _, .refused _ => False
  | .refused _, .next _ => False
  | .fault f, _ => nomatch f
  | _, .fault f => nomatch f

/-- The two states differ at most in ERR, ERRCODE and ERROP. -/
def SameButError (s t : State) : Prop := t = { s with err := t.err, errCode := t.errCode, errOp := t.errOp }

end Sys2Proof.Machine
end

