-- ==== Sys2Proof/Certificates/Slice0/Obligations.lean ====
section
/-! DEFINITION. The statements for the provers. Each docstring names the rule of spec/ it formalises, or says that it
is a choice of the model and names the log entry. -/

open Sys2Proof Sys2Proof.Machine

/-! ### Encoding and issue -/

/-- The command words of 30_encoding.md R93, written out as R91 lays their bits out, decode to their commands. -/
def Obligations.SpecWordsDecode : Prop :=
  decode 0b00000000000000000000000000000001 = .ok .nop ∧
  decode 0b00000000000000000000000000001111 = .ok .sreset ∧
  decode 0b00000000000000000000000000010001 = .ok .crc16Update ∧
  decode 0b00000000000000000000000000100010 = .ok .crc32Store ∧
  decode 0b00000000000000000000000000110000 = .ok .scSched ∧
  decode 0b00000000000000000000000001000001 = .ok .rxCrypt

/-- 30_encoding.md R96: a command's word is its OPC zero-extended, a word selects exactly the command whose word it
is, and at most one row matches. Decode and encode agree, in both directions. -/
def Obligations.DecodeEncodeAgree : Prop :=
  (∀ i : Instr, encode i = i.opcode.zeroExtend 32) ∧
  (∀ (i : Instr) (v : Word), i.wellFormed = true → (decode v = .ok i ↔ v = encode i)) ∧
  (∀ i j : Instr, encode i = encode j → i = j)

/-- 30_encoding.md R94: the words that are illegal, spelt out; issuing one records ILLEGAL_CMD, with ERROP = v[7:0],
unless an error is recorded already (60_exceptions.md R200), and has no other effect; every other word is a command. -/
def Obligations.IllegalWordsRecordIllegalCmd : Prop :=
  ∀ (s : State) (v : Word) (rest : List BusEvent), s.pending = commandWrite v :: rest →
    let opc := v.toNat % 256
    let illegal := v.toNat / 256 ≠ 0 ∨ opc = 0 ∨ (0x03 ≤ opc ∧ opc ≤ 0x0E) ∨ (0x14 ≤ opc ∧ opc ≤ 0x1F) ∨
      (0x24 ≤ opc ∧ opc ≤ 0x2F) ∨ (0x32 ≤ opc ∧ opc ≤ 0x3F) ∨ 0x42 ≤ opc
    (illegal → step s = .next { s with
      pending := rest, err := true, errCode := if s.err then s.errCode else .illegalCmd,
      errOp := if s.err then s.errOp else v.extractLsb' 0 8 }) ∧
    (¬illegal → ∃ i, decode v = .ok i ∧ v = encode i)

/-- A step runs the decoded command (30_encoding.md R90, 20_memory.md R75): where the next transaction is a CMD write
of a word that decodes, the step is exec of that command, on the state in which the write has arrived. -/
def Obligations.StepRunsDecodedCommand : Prop :=
  ∀ (s : State) (v : Word) (i : Instr) (rest : List BusEvent),
    s.pending = commandWrite v :: rest → decode v = .ok i → i.wellFormed = true →
    step s = exec i { s with pending := rest }

/-- The MODEL's choice (log entry 1): with nothing pending a step leaves the state as it is. -/
def Obligations.IdleBlockWaits : Prop := ∀ s : State, s.pending = [] → step s = .next s

/-! ### Control commands -/

/-- 40_control.md R110: NOP, word 0x00000001, changes nothing. -/
def Obligations.NopChangesNothing : Prop :=
  encode .nop = 0x00000001 ∧ ∀ s : State, exec .nop s = .next s

/-- 40_control.md R111: CLRSTAT, word 0x00000002, clears ERR, ERRCODE, ERROP and MATCH, and nothing else. -/
def Obligations.ClrstatClearsStatus : Prop :=
  encode .clrstat = 0x00000002 ∧
  ∀ s : State, exec .clrstat s = .next { s with err := false, errCode := .none, errOp := 0, matched := false }

/-- 40_control.md R112: SRESET, word 0x0000000F, writes every register and flag with its reset value and writes
neither S nor BUF. -/
def Obligations.SresetResetsRegisters : Prop :=
  encode .sreset = 0x0000000F ∧
  ∀ s : State, exec .sreset s = .next { s with
    src := 0, dst := 0, len := 0, keyAddr := 0, keyLen := 0, crc16 := 0xFFFF, crc32 := 0xFFFFFFFF, rxKey := 0,
    scI := 0, scJ := 0, keyed := false, err := false, errCode := .none, errOp := 0, matched := false }

/-! ### CRC16 -/

/-- 41_crc16.md R121: CRC16.INIT, word 0x00000010, sets CRC16 to 0xFFFF, which a host write of 0x0000FFFF to CRC16 does
too, and changes nothing where CRC16 is 0xFFFF already, as after reset. -/
def Obligations.Crc16InitSetsRegister : Prop :=
  encode .crc16Init = 0x00000010 ∧
  ∀ s : State, exec .crc16Init s = .next { s with crc16 := 0xFFFF } ∧
    serve (.write .w32 0x01C 0x0000FFFF) s = .next { s with crc16 := 0xFFFF } ∧
    (s.crc16 = 0xFFFF → exec .crc16Init s = .next s) ∧ State.reset.crc16 = 0xFFFF

/-- 41_crc16.md R122: CRC16.UPDATE, word 0x00000011, folds BUF[SRC], ..., BUF[SRC+LEN-1] into CRC16, or records
RANGE with nothing else changed. -/
def Obligations.Crc16UpdateFoldsBytes : Prop :=
  encode .crc16Update = 0x00000011 ∧
  ∀ s : State,
    (s.src.toNat + s.len.toNat ≤ s.bufSize →
      exec .crc16Update s = .next { s with
        crc16 := (List.range s.len.toNat).foldl (fun c k => crc16Byte c (s.byte (s.src.toNat + k))) s.crc16 }) ∧
    (s.src.toNat + s.len.toNat > s.bufSize → exec .crc16Update s = .next (raiseError .range 0x11 s))

/-- 41_crc16.md R120: crc16_byte is linear over XOR in the register and the byte together (read from the rule: an XOR
and eight shifts by the polynomial 0xA001), and folds a zero byte into a zero register to zero. -/
def Obligations.Crc16ByteIsLinear : Prop :=
  (∀ (c d : Half) (a b : Byte), crc16Byte (c ^^^ d) (a ^^^ b) = crc16Byte c a ^^^ crc16Byte d b) ∧
  crc16Byte 0 0 = 0 ∧ crc16Byte 0xFFFF 0x00 = 0x40BF ∧ crc16Byte 0xFFFF 0xFF = 0x00FF

/-- 41_crc16.md R123: CRC16.STORE, word 0x00000012, writes CRC16 low byte first at DST and DST+1 and nothing else, or
records RANGE with nothing else changed. -/
def Obligations.Crc16StoreWritesLittleEndian : Prop :=
  encode .crc16Store = 0x00000012 ∧
  ∀ s : State,
    (s.dstAddr + 2 ≤ s.bufSize → ∃ t, exec .crc16Store s = .next t ∧ t = { s with buf := t.buf } ∧
      t.byte s.dstAddr = s.crc16.extractLsb' 0 8 ∧ t.byte (s.dstAddr + 1) = s.crc16.extractLsb' 8 8 ∧
      SameOutside s t s.dstAddr 2) ∧
    (s.dstAddr + 2 > s.bufSize → exec .crc16Store s = .next (raiseError .range 0x12 s))

/-- 41_crc16.md R124: CRC16.CHECK, word 0x00000013, sets MATCH exactly when the bytes at DST and DST+1 are CRC16's low
and high byte, or clears MATCH and records RANGE. -/
def Obligations.Crc16CheckComparesLittleEndian : Prop :=
  encode .crc16Check = 0x00000013 ∧
  ∀ s : State,
    (s.dstAddr + 2 ≤ s.bufSize → exec .crc16Check s = .next { s with
      matched := decide (s.byte s.dstAddr = s.crc16.extractLsb' 0 8 ∧
                         s.byte (s.dstAddr + 1) = s.crc16.extractLsb' 8 8) }) ∧
    (s.dstAddr + 2 > s.bufSize → exec .crc16Check s = .next (raiseError .range 0x13 { s with matched := false }))

/-! ### CRC32 -/

/-- 42_crc32.md R141: CRC32.INIT, word 0x00000020, sets CRC32 to 0xFFFFFFFF, and CRC32OUT then reads 0. It changes
nothing where CRC32 is 0xFFFFFFFF already, as after reset. -/
def Obligations.Crc32InitSetsRegister : Prop :=
  encode .crc32Init = 0x00000020 ∧
  ∀ s : State, exec .crc32Init s = .next { s with crc32 := 0xFFFFFFFF } ∧
    readRegister .crc32Out { s with crc32 := 0xFFFFFFFF } = 0 ∧
    (s.crc32 = 0xFFFFFFFF → exec .crc32Init s = .next s) ∧ State.reset.crc32 = 0xFFFFFFFF

/-- 42_crc32.md R142: CRC32.UPDATE, word 0x00000021, folds BUF[SRC], ..., BUF[SRC+LEN-1] into CRC32, or records RANGE
with nothing else changed. -/
def Obligations.Crc32UpdateFoldsBytes : Prop :=
  encode .crc32Update = 0x00000021 ∧
  ∀ s : State,
    (s.src.toNat + s.len.toNat ≤ s.bufSize →
      exec .crc32Update s = .next { s with
        crc32 := (List.range s.len.toNat).foldl (fun c k => crc32Byte c (s.byte (s.src.toNat + k))) s.crc32 }) ∧
    (s.src.toNat + s.len.toNat > s.bufSize → exec .crc32Update s = .next (raiseError .range 0x21 s))

/-- 42_crc32.md R140: crc32_byte is linear over XOR in the register and the byte together, and the value of four zero
bytes and of one zero byte are the spec's. -/
def Obligations.Crc32ByteIsLinear : Prop :=
  (∀ (c d : Word) (a b : Byte), crc32Byte (c ^^^ d) (a ^^^ b) = crc32Byte c a ^^^ crc32Byte d b) ∧
  crc32Byte 0 0 = 0 ∧ crc32Seq 0xFFFFFFFF [0, 0, 0, 0] = 0xDEBB20E3 ∧ crc32Value [0] = 0xD202EF8D

/-- 42_crc32.md R143: CRC32.STORE, word 0x00000022, writes the bytes of CRC32 XOR 0xFFFFFFFF, low byte first, at DST to
DST+3 and nothing else, or records RANGE with nothing else changed. -/
def Obligations.Crc32StoreWritesLittleEndian : Prop :=
  encode .crc32Store = 0x00000022 ∧
  ∀ s : State,
    (s.dstAddr + 4 ≤ s.bufSize → ∃ t, exec .crc32Store s = .next t ∧ t = { s with buf := t.buf } ∧
      (∀ k, k < 4 → t.byte (s.dstAddr + k) = (s.crc32 ^^^ 0xFFFFFFFF).extractLsb' (8 * k) 8) ∧
      SameOutside s t s.dstAddr 4) ∧
    (s.dstAddr + 4 > s.bufSize → exec .crc32Store s = .next (raiseError .range 0x22 s))

/-- 42_crc32.md R144: CRC32.CHECK, word 0x00000023, sets MATCH exactly when the four bytes at DST are the bytes of
CRC32 XOR 0xFFFFFFFF, low byte first, or clears MATCH and records RANGE. -/
def Obligations.Crc32CheckComparesLittleEndian : Prop :=
  encode .crc32Check = 0x00000023 ∧
  ∀ s : State,
    (s.dstAddr + 4 ≤ s.bufSize → ∃ b, exec .crc32Check s = .next { s with matched := b } ∧
      (b = true ↔ ∀ k, k < 4 → s.byte (s.dstAddr + k) = (s.crc32 ^^^ 0xFFFFFFFF).extractLsb' (8 * k) 8)) ∧
    (s.dstAddr + 4 > s.bufSize → exec .crc32Check s = .next (raiseError .range 0x23 { s with matched := false }))

/-! ### Laws of both checksums -/

/-- 41_crc16.md R126 and 42_crc32.md R146, for commands: an UPDATE over n bytes and then an UPDATE over the next m
bytes leave the register that one UPDATE over n + m bytes leaves. -/
def Obligations.ChecksumUpdatesChain : Prop :=
  ∀ (s : State) (n m : Half), s.bufSize ≤ 65536 → n.toNat + m.toNat < 65536 →
    s.src.toNat + n.toNat + m.toNat ≤ s.bufSize →
    (∃ t u w, exec .crc16Update { s with len := n } = .next t ∧
      exec .crc16Update { t with src := s.src + n, len := m } = .next u ∧
      exec .crc16Update { s with len := n + m } = .next w ∧ u = { w with src := s.src + n, len := m }) ∧
    (∃ t u w, exec .crc32Update { s with len := n } = .next t ∧
      exec .crc32Update { t with src := s.src + n, len := m } = .next u ∧
      exec .crc32Update { s with len := n + m } = .next w ∧ u = { w with src := s.src + n, len := m })

/-- 41_crc16.md R125: INIT, UPDATE over the bytes of a sequence in BUF, and STORE put the source's crc16 of the
sequence, low byte first, at the destination. (Sequences that LEN can count: fewer than 65536 bytes.) -/
def Obligations.Crc16OfSequenceIsStored : Prop :=
  ∀ (s : State) (d : Half), s.srcAddr + s.length ≤ s.bufSize → d.toNat + 2 ≤ s.bufSize →
    ∃ t u w, exec .crc16Init s = .next t ∧ exec .crc16Update t = .next u ∧
      exec .crc16Store { u with dst := d } = .next w ∧
      u = { s with crc16 := crc16Seq 0xFFFF (s.bytes s.srcAddr s.length) } ∧
      w.byte d.toNat = (crc16Seq 0xFFFF (s.bytes s.srcAddr s.length)).extractLsb' 0 8 ∧
      w.byte (d.toNat + 1) = (crc16Seq 0xFFFF (s.bytes s.srcAddr s.length)).extractLsb' 8 8 ∧
      SameOutside s w d.toNat 2

/-- 42_crc32.md R145: INIT, UPDATE over the bytes of a sequence in BUF, and STORE put crc32_value of the sequence, low
byte first, at the destination. (Sequences that LEN can count: fewer than 65536 bytes.) -/
def Obligations.Crc32OfSequenceIsStored : Prop :=
  ∀ (s : State) (d : Half), s.srcAddr + s.length ≤ s.bufSize → d.toNat + 4 ≤ s.bufSize →
    ∃ t u w, exec .crc32Init s = .next t ∧ exec .crc32Update t = .next u ∧
      exec .crc32Store { u with dst := d } = .next w ∧
      readRegister .crc32Out u = crc32Value (s.bytes s.srcAddr s.length) ∧
      (∀ k, k < 4 →
        w.byte (d.toNat + k) = (crc32Value (s.bytes s.srcAddr s.length)).extractLsb' (8 * k) 8) ∧
      SameOutside s w d.toNat 4

/-- 42_crc32.md R147: the checksum of a frame whose first four bytes count as zeros, with four zero bytes at z: INIT,
UPDATE over (z, 4) and UPDATE over (f+4, n) leave crc32_value of four zeros and the n bytes after them in CRC32OUT, and
every byte of BUF as it was. The frame may be the four bytes alone (n = 0). -/
def Obligations.ZeroedFieldChecksum : Prop :=
  ∀ (s : State) (z f n : Half), s.bufSize ≤ 65536 → z.toNat + 4 ≤ s.bufSize →
    f.toNat + 4 + n.toNat ≤ s.bufSize → (∀ k, k < 4 → s.byte (z.toNat + k) = 0) →
    ∃ t u w, exec .crc32Init s = .next t ∧ exec .crc32Update { t with src := z, len := 4 } = .next u ∧
      exec .crc32Update { u with src := f + 4, len := n } = .next w ∧
      readRegister .crc32Out w = crc32Value ([0, 0, 0, 0] ++ s.bytes (f.toNat + 4) n.toNat) ∧
      ∀ a, w.byte a = s.byte a

/-- 41_crc16.md R124 and 42_crc32.md R144 ("CHECK matches exactly what STORE would write"): a CHECK right after a STORE
gives MATCH = 1. -/
def Obligations.CheckAfterStoreMatches : Prop :=
  ∀ s : State,
    (s.dstAddr + 2 ≤ s.bufSize → ∃ t u, exec .crc16Store s = .next t ∧ exec .crc16Check t = .next u ∧
      u = { t with matched := true }) ∧
    (s.dstAddr + 4 ≤ s.bufSize → ∃ t u, exec .crc32Store s = .next t ∧ exec .crc32Check t = .next u ∧
      u = { t with matched := true })

/-! ### The stream cipher -/

/-- 43_stream_cipher.md R164: SC.SCHED, word 0x00000030, builds S from the key bytes, sets I = J = 0 and KEYED = 1; a
key length of 0 or above 256 records BAD_KEYLEN, and otherwise a key outside BUF records RANGE. -/
def Obligations.ScSchedBuildsTable : Prop :=
  encode .scSched = 0x00000030 ∧
  ∀ s : State,
    (s.keyLen.toNat = 0 ∨ s.keyLen.toNat > 256 → exec .scSched s = .next (raiseError .badKeyLen 0x30 s)) ∧
    (1 ≤ s.keyLen.toNat → s.keyLen.toNat ≤ 256 → s.keyAddr.toNat + s.keyLen.toNat > s.bufSize →
      exec .scSched s = .next (raiseError .range 0x30 s)) ∧
    (1 ≤ s.keyLen.toNat → s.keyLen.toNat ≤ 256 → s.keyAddr.toNat + s.keyLen.toNat ≤ s.bufSize →
      exec .scSched s = .next { s with
        sbox := ksa ((List.range s.keyLen.toNat).map fun m => s.byte (s.keyAddr.toNat + m)),
        scI := 0, scJ := 0, keyed := true })

/-- 43_stream_cipher.md R161, R164: keys that give the same sequence key[i mod K], i = 0..255, give the same S, and a
longer key gives the S of its first 256 bytes. -/
def Obligations.KeyScheduleReadsKeyCyclically : Prop :=
  (∀ key key' : List Byte,
    (∀ i, i < 256 → key.getD (i % key.length) 0 = key'.getD (i % key'.length) 0) → ksa key = ksa key') ∧
  (∀ key : List Byte, 256 ≤ key.length → ksa (key.take 256) = ksa key)

/-- 43_stream_cipher.md R165 with 20_memory.md R81: SC.CRYPT, word 0x00000031. NOT_KEYED, then RANGE, are recorded with
nothing else changed. Otherwise byte k of the destination is the k-th input byte XOR the k-th keystream byte, where
the input byte is one this command has already written if it lies in the written part of the destination; S, I and J
are those after LEN keystream steps; and no other byte of BUF and no other register changes. -/
def Obligations.ScCryptXorsKeystream : Prop :=
  encode .scCrypt = 0x00000031 ∧
  ∀ s : State,
    (s.keyed = false → exec .scCrypt s = .next (raiseError .notKeyed 0x31 s)) ∧
    (s.keyed = true → s.srcAddr + s.length > s.bufSize ∨ s.dstAddr + s.length > s.bufSize →
      exec .scCrypt s = .next (raiseError .range 0x31 s)) ∧
    (s.keyed = true → s.srcAddr + s.length ≤ s.bufSize → s.dstAddr + s.length ≤ s.bufSize →
      ∃ t, exec .scCrypt s = .next t ∧
        t = { s with buf := t.buf, sbox := (keystreamAfter s.length s.keystream).sbox,
                     scI := (keystreamAfter s.length s.keystream).i,
                     scJ := (keystreamAfter s.length s.keystream).j } ∧
        (∀ k, k < s.length → t.byte (s.dstAddr + k) =
          (if s.srcAddr < s.dstAddr ∧ s.dstAddr ≤ s.srcAddr + k then t.byte (s.srcAddr + k)
           else s.byte (s.srcAddr + k)) ^^^ keystreamByte k s.keystream) ∧
        SameOutside s t s.dstAddr s.length)

/-- 43_stream_cipher.md R163: one keystream step, by S's entries: I advances by 1, J by the entry at the new I, the
two entries are exchanged, every other entry stays, and z is the entry at the sum of the two, after the exchange. -/
def Obligations.KeystreamStepSwapsAndReads : Prop :=
  ∀ c : Keystream,
    let i := c.i + 1
    let j := c.j + c.sbox.get i
    let d := (prga c).1
    d.i = i ∧ d.j = j ∧ d.sbox.get i = c.sbox.get j ∧ d.sbox.get j = c.sbox.get i ∧
      (∀ k, k ≠ i → k ≠ j → d.sbox.get k = c.sbox.get k) ∧
      (prga c).2 = d.sbox.get (c.sbox.get i + c.sbox.get j)

/-- 10_state.md R38, 43_stream_cipher.md R162, R163: the key schedule gives a permutation of 0..255 for every key, SC.CRYPT
keeps S a permutation, and it advances I by LEN mod 256. -/
def Obligations.SboxStaysPermutation : Prop :=
  (∀ key : List Byte, (ksa key).IsPermutation) ∧
  ∀ s : State, s.keyed = true → s.srcAddr + s.length ≤ s.bufSize → s.dstAddr + s.length ≤ s.bufSize →
    s.sbox.IsPermutation →
    ∃ t, exec .scCrypt s = .next t ∧ t.sbox.IsPermutation ∧ t.scI = s.scI + BitVec.ofNat 8 s.length

/-- 43_stream_cipher.md R168: an SC.CRYPT over n bytes and then one over the next m bytes write the same bytes, and
leave the same S, I and J, as one SC.CRYPT over n + m bytes. -/
def Obligations.ScCryptChains : Prop :=
  ∀ (s : State) (n m : Half), s.bufSize ≤ 65536 → s.keyed = true → n.toNat + m.toNat < 65536 →
    s.src.toNat + n.toNat + m.toNat ≤ s.bufSize → s.dst.toNat + n.toNat + m.toNat ≤ s.bufSize →
    ∃ t u w, exec .scCrypt { s with len := n } = .next t ∧
      exec .scCrypt { t with src := s.src + n, dst := s.dst + n, len := m } = .next u ∧
      exec .scCrypt { s with len := n + m } = .next w ∧
      u = { w with src := s.src + n, dst := s.dst + n, len := m }

/-- 43_stream_cipher.md R167: SC.SCHED and SC.CRYPT, then SC.SCHED with the same key and SC.CRYPT over the result in
place, give the original bytes back. The ranges do not overlap forward (70_reset_and_hazards.md R238) and the output
does not overwrite the key. -/
def Obligations.ScCryptIsSelfInverse : Prop :=
  ∀ s : State, 1 ≤ s.keyLength → s.keyLength ≤ 256 → s.keyAddress + s.keyLength ≤ s.bufSize →
    s.srcAddr + s.length ≤ s.bufSize → s.dstAddr + s.length ≤ s.bufSize →
    ¬(s.srcAddr < s.dstAddr ∧ s.dstAddr < s.srcAddr + s.length) →
    (s.keyAddress + s.keyLength ≤ s.dstAddr ∨ s.dstAddr + s.length ≤ s.keyAddress) →
    ∃ t u v w, exec .scSched s = .next t ∧ exec .scCrypt t = .next u ∧ exec .scSched u = .next v ∧
      exec .scCrypt { v with src := s.dst } = .next w ∧
      (∀ k, k < s.length → w.byte (s.dstAddr + k) = s.byte (s.srcAddr + k)) ∧
      w.keystream = u.keystream

/-- 43_stream_cipher.md R169: SC.SCHED's result depends only on the key bytes: two states with the same key bytes,
wherever these lie and whatever else the states hold, get the same S, I, J and KEYED. SC.CRYPT's new S, I and J depend
only on S, I, J and the number of input bytes, for every placing of source and destination. Its output bytes depend only
on S, I, J and the input bytes, wherever these lie, where in both states the ranges do not overlap forward; with a
forward overlap (70_reset_and_hazards.md R238) later elements read earlier outputs, and `ScCryptXorsKeystream` says
what is written. -/
def Obligations.ScCommandsAreDeterministic : Prop :=
  (∀ s s' t t' : State, expectedError .scSched s = none → expectedError .scSched s' = none →
    s.keyBytes = s'.keyBytes → exec .scSched s = .next t → exec .scSched s' = .next t' →
    t.keystream = t'.keystream ∧ t.keyed = t'.keyed) ∧
  (∀ s s' t t' : State, expectedError .scCrypt s = none → expectedError .scCrypt s' = none →
    s.keystream = s'.keystream → s.len = s'.len →
    exec .scCrypt s = .next t → exec .scCrypt s' = .next t' →
    t.keystream = t'.keystream ∧
    (¬(s.srcAddr < s.dstAddr ∧ s.dstAddr < s.srcAddr + s.length) →
      ¬(s'.srcAddr < s'.dstAddr ∧ s'.dstAddr < s'.srcAddr + s'.length) →
      s.bytes s.srcAddr s.length = s'.bytes s'.srcAddr s'.length →
      t.bytes s.dstAddr s.length = t'.bytes s'.dstAddr s'.length))

/-! ### The rotating XOR -/

/-- 44_rotating_xor.md R183: RX.LOADKEY, word 0x00000040, loads RXKEY from the four bytes at KEYADDR, the first in bits
[31:24], which a host write of that integer to RXKEY does too, or records RANGE with nothing else changed. -/
def Obligations.RxLoadkeyReadsBigEndian : Prop :=
  encode .rxLoadkey = 0x00000040 ∧
  ∀ s : State,
    (s.keyAddress + 4 ≤ s.bufSize → ∃ key : Word, exec .rxLoadkey s = .next { s with rxKey := key } ∧
      serve (.write .w32 0x028 key) s = .next { s with rxKey := key } ∧
      ∀ k, k < 4 → key.extractLsb' (24 - 8 * k) 8 = s.byte (s.keyAddress + k)) ∧
    (s.keyAddress + 4 > s.bufSize → exec .rxLoadkey s = .next (raiseError .range 0x40 s))

/-- 44_rotating_xor.md R184 with R181, R182 and 20_memory.md R81: RX.CRYPT, word 0x00000041. BAD_LEN, then RANGE, are
recorded with nothing else changed. Otherwise byte b of word n of the destination is the input byte XOR byte b of the
key rotated left n times, where the input byte is one this command has already written if it lies in the words written
before word n; RXKEY is rotated LEN/4 times; and no other byte of BUF and no other register changes. -/
def Obligations.RxCryptXorsRotatedKey : Prop :=
  encode .rxCrypt = 0x00000041 ∧
  ∀ s : State,
    (s.length % 4 ≠ 0 → exec .rxCrypt s = .next (raiseError .badLen 0x41 s)) ∧
    (s.length % 4 = 0 → s.srcAddr + s.length > s.bufSize ∨ s.dstAddr + s.length > s.bufSize →
      exec .rxCrypt s = .next (raiseError .range 0x41 s)) ∧
    (s.length % 4 = 0 → s.srcAddr + s.length ≤ s.bufSize → s.dstAddr + s.length ≤ s.bufSize →
      ∃ t, exec .rxCrypt s = .next t ∧
        t = { s with buf := t.buf, rxKey := s.rxKey.rotateLeft (s.length / 4) } ∧
        (∀ n b, n < s.length / 4 → b < 4 → t.byte (s.dstAddr + 4 * n + b) =
          (if s.dstAddr ≤ s.srcAddr + 4 * n + b ∧ s.srcAddr + 4 * n + b < s.dstAddr + 4 * n
           then t.byte (s.srcAddr + 4 * n + b) else s.byte (s.srcAddr + 4 * n + b)) ^^^
            (s.rxKey.rotateLeft n).extractLsb' (8 * b) 8) ∧
        SameOutside s t s.dstAddr s.length)

/-- 44_rotating_xor.md R186: an RX.CRYPT over n bytes and then one over the next m bytes give the same bytes and the
same RXKEY as one RX.CRYPT over n + m bytes. -/
def Obligations.RxCryptChains : Prop :=
  ∀ (s : State) (n m : Half), s.bufSize ≤ 65536 → n.toNat % 4 = 0 → m.toNat % 4 = 0 →
    n.toNat + m.toNat < 65536 →
    s.src.toNat + n.toNat + m.toNat ≤ s.bufSize → s.dst.toNat + n.toNat + m.toNat ≤ s.bufSize →
    ∃ t u w, exec .rxCrypt { s with len := n } = .next t ∧
      exec .rxCrypt { t with src := s.src + n, dst := s.dst + n, len := m } = .next u ∧
      exec .rxCrypt { s with len := n + m } = .next w ∧
      u = { w with src := s.src + n, dst := s.dst + n, len := m }

/-- 44_rotating_xor.md R187: RX.CRYPT over the result in place, with RXKEY set back to the starting key, gives the
original bytes back. The ranges do not overlap forward (70_reset_and_hazards.md R238). -/
def Obligations.RxCryptIsSelfInverse : Prop :=
  ∀ s : State, s.length % 4 = 0 → s.srcAddr + s.length ≤ s.bufSize → s.dstAddr + s.length ≤ s.bufSize →
    ¬(s.srcAddr < s.dstAddr ∧ s.dstAddr < s.srcAddr + s.length) →
    ∃ t u, exec .rxCrypt s = .next t ∧ exec .rxCrypt { t with src := s.dst, rxKey := s.rxKey } = .next u ∧
      (∀ k, k < s.length → u.byte (s.dstAddr + k) = s.byte (s.srcAddr + k)) ∧ u.rxKey = t.rxKey

/-- 44_rotating_xor.md R184, R186: after 32 words, and after every multiple of 32 words, RXKEY is back at its starting
value. -/
def Obligations.RxKeyHasPeriod32 : Prop :=
  ∀ s : State, s.length % 128 = 0 → s.srcAddr + s.length ≤ s.bufSize → s.dstAddr + s.length ≤ s.bufSize →
    ∃ t, exec .rxCrypt s = .next t ∧ t.rxKey = s.rxKey

/-! ### Errors -/

/-- 60_exceptions.md R202, R203, R204, R205: a command whose checks fail raises the one error that the table and the
priority give: ERR becomes 1, ERRCODE and ERROP record it if ERR was 0 (R200), and nothing else is written, except
MATCH <- 0 for a CHECK. -/
def Obligations.FailedCommandHasNoPartialEffect : Prop :=
  ∀ (i : Instr) (s : State) (code : ErrorCode), expectedError i s = some code →
    exec i s = .next (raiseError code i.opcode (beforeError i s)) ∧
    (∀ t, exec i s = .next t → t = { s with err := true, errCode := t.errCode, errOp := t.errOp,
                                            matched := if isCheck i then false else s.matched } ∧
      (s.err = false → t.errCode = code ∧ t.errOp = i.opcode) ∧
      (s.err = true → t.errCode = s.errCode ∧ t.errOp = s.errOp))

/-- 60_exceptions.md R201: while ERR is 1, no command but CLRSTAT and SRESET, and no illegal word, changes ERR, ERRCODE
or ERROP. -/
def Obligations.FirstErrorIsKept : Prop :=
  (∀ (i : Instr) (s t : State), s.err = true → i ≠ .clrstat → i ≠ .sreset → exec i s = .next t →
    t.err = true ∧ t.errCode = s.errCode ∧ t.errOp = s.errOp) ∧
  (∀ (v : Word) (s t : State), s.err = true → (∀ i, decode v ≠ .ok i) → issueCommand v s = .next t → t = s)

/-- 60_exceptions.md R201 ("A command issued while ERR = 1 executes normally"): what a command does to everything but
the error record does not depend on the error record. -/
def Obligations.ErrDoesNotBlockCommands : Prop :=
  ∀ (i : Instr) (s : State) (err : Bool) (code : ErrorCode) (op : Byte),
    ∃ t u, exec i s = .next t ∧ exec i { s with err := err, errCode := code, errOp := op } = .next u ∧
      SameButError t u

/-- 10_state.md R41: which commands change each flag, and to what. -/
def Obligations.FlagWriters : Prop :=
  ∀ (i : Instr) (s t : State), exec i s = .next t →
    (t.err ≠ s.err → (t.err = true ∧ expectedError i s ≠ none) ∨ (t.err = false ∧ (i = .clrstat ∨ i = .sreset))) ∧
    (t.errCode ≠ s.errCode ∨ t.errOp ≠ s.errOp →
      (s.err = false ∧ expectedError i s ≠ none) ∨ (i = .clrstat ∨ i = .sreset)) ∧
    (t.matched ≠ s.matched → isCheck i = true ∨ (t.matched = false ∧ (i = .clrstat ∨ i = .sreset))) ∧
    (t.matched = true → s.matched = true ∨ (isCheck i = true ∧ expectedError i s = none)) ∧
    (t.keyed ≠ s.keyed →
      (t.keyed = true ∧ i = .scSched ∧ expectedError i s = none) ∨ (t.keyed = false ∧ i = .sreset))

/-- 10_state.md R25: STATUS holds ERR at [0], ERRCODE at [7:4], MATCH at [8], KEYED at [9] and ERROP at [23:16], and 0
at [3:1], [15:10] and [31:24]; and ERRCODE's numbers are those of 60_exceptions.md R204: NONE 0, ILLEGAL_CMD 1, RANGE 2,
BAD_LEN 3, BAD_KEYLEN 4, NOT_KEYED 5. -/
def Obligations.StatusWordFields : Prop :=
  ∀ s : State,
    (readRegister .status s).getLsbD 0 = s.err ∧
    (readRegister .status s).extractLsb' 1 3 = 0 ∧
    ((readRegister .status s).extractLsb' 4 4 = (0 : BitVec 4) ↔ s.errCode = .none) ∧
    ((readRegister .status s).extractLsb' 4 4 = (1 : BitVec 4) ↔ s.errCode = .illegalCmd) ∧
    ((readRegister .status s).extractLsb' 4 4 = (2 : BitVec 4) ↔ s.errCode = .range) ∧
    ((readRegister .status s).extractLsb' 4 4 = (3 : BitVec 4) ↔ s.errCode = .badLen) ∧
    ((readRegister .status s).extractLsb' 4 4 = (4 : BitVec 4) ↔ s.errCode = .badKeyLen) ∧
    ((readRegister .status s).extractLsb' 4 4 = (5 : BitVec 4) ↔ s.errCode = .notKeyed) ∧
    (readRegister .status s).getLsbD 8 = s.matched ∧
    (readRegister .status s).getLsbD 9 = s.keyed ∧
    (readRegister .status s).extractLsb' 10 6 = 0 ∧
    (readRegister .status s).extractLsb' 16 8 = s.errOp ∧
    (readRegister .status s).extractLsb' 24 8 = 0

/-! ### Who writes what -/

/-- 10_state.md R42: the writers of the engine state, by command and by host transaction; a command that raises an error
writes none of it. -/
def Obligations.EngineStateWriters : Prop :=
  (∀ (i : Instr) (s t : State), exec i s = .next t →
    (t.crc16 ≠ s.crc16 → i = .crc16Init ∨ i = .crc16Update ∨ i = .sreset) ∧
    (t.crc32 ≠ s.crc32 → i = .crc32Init ∨ i = .crc32Update ∨ i = .sreset) ∧
    (t.rxKey ≠ s.rxKey → i = .rxLoadkey ∨ i = .rxCrypt ∨ i = .sreset) ∧
    (t.sbox ≠ s.sbox → i = .scSched ∨ i = .scCrypt) ∧
    (t.scI ≠ s.scI ∨ t.scJ ≠ s.scJ → i = .scSched ∨ i = .scCrypt ∨ i = .sreset) ∧
    (t.buf ≠ s.buf → i = .crc16Store ∨ i = .crc32Store ∨ i = .scCrypt ∨ i = .rxCrypt) ∧
    (expectedError i s ≠ none → t.crc16 = s.crc16 ∧ t.crc32 = s.crc32 ∧ t.rxKey = s.rxKey ∧ t.sbox = s.sbox ∧
      t.scI = s.scI ∧ t.scJ = s.scJ ∧ t.buf = s.buf)) ∧
  (∀ (w : Width) (off : Offset) (v : Word) (s t : State), off ≠ 0 → serve (.write w off v) s = .next t →
    t.sbox = s.sbox ∧ t.scI = s.scI ∧ t.scJ = s.scJ ∧
    (t.crc16 ≠ s.crc16 → off = 0x01C) ∧ (t.crc32 ≠ s.crc32 → off = 0x020) ∧ (t.rxKey ≠ s.rxKey → off = 0x028) ∧
    (t.buf ≠ s.buf → 0x1000 ≤ off.toNat ∧ off.toNat < 0x1000 + s.bufSize))

/-- 10_state.md R21, 30_encoding.md R92: every command only reads the operand registers, except SRESET, and none
changes BUF_SIZE, the power-on draw, what is still to arrive or what was read. -/
def Obligations.CommandsOnlyReadOperands : Prop :=
  ∀ (i : Instr) (s t : State), exec i s = .next t →
    (i ≠ .sreset → t.src = s.src ∧ t.dst = s.dst ∧ t.len = s.len ∧ t.keyAddr = s.keyAddr ∧ t.keyLen = s.keyLen) ∧
    t.bufSize = s.bufSize ∧ t.draw = s.draw ∧ t.pending = s.pending ∧ t.readData = s.readData

/-- 20_memory.md R72, "writes" column: a command changes no byte of BUF outside the range it writes, and none at all
when one of its checks fails. -/
def Obligations.CommandsStoreOnlyTheirRange : Prop :=
  ∀ (i : Instr) (s t : State), exec i s = .next t →
    SameOutside s t (storeRange i s).1 (storeRange i s).2 ∧
    (expectedError i s ≠ none → ∀ a, t.byte a = s.byte a)

/-! ### The host's accesses -/

/-- 10_state.md R45 with R23: a 32-bit write of an RW register, at the offset the register map gives it, stores the
value's field bits into that register and changes nothing else; and a read at that offset that follows returns them
with every other bit 0, while every other register reads as before (but CRC32OUT, the view of CRC32). -/
def Obligations.RegisterWriteThenRead : Prop :=
  (∀ (s : State) (v : Word),
    serve (.write .w32 0x008 v) s = .next { s with src := v.extractLsb' 0 16 } ∧
    serve (.write .w32 0x00C v) s = .next { s with dst := v.extractLsb' 0 16 } ∧
    serve (.write .w32 0x010 v) s = .next { s with len := v.extractLsb' 0 16 } ∧
    serve (.write .w32 0x014 v) s = .next { s with keyAddr := v.extractLsb' 0 16 } ∧
    serve (.write .w32 0x018 v) s = .next { s with keyLen := v.extractLsb' 0 9 } ∧
    serve (.write .w32 0x01C v) s = .next { s with crc16 := v.extractLsb' 0 16 } ∧
    serve (.write .w32 0x020 v) s = .next { s with crc32 := v } ∧
    serve (.write .w32 0x028 v) s = .next { s with rxKey := v }) ∧
  ∀ (s : State) (r : Reg) (off : Offset) (v mask : Word) (rest : List BusEvent),
    (r, off, mask) ∈ [(Reg.src, (0x008 : Offset), (0xFFFF : Word)), (.dst, 0x00C, 0xFFFF), (.len, 0x010, 0xFFFF),
      (.keyAddr, 0x014, 0xFFFF), (.keyLen, 0x018, 0x1FF), (.crc16, 0x01C, 0xFFFF), (.crc32, 0x020, 0xFFFFFFFF),
      (.rxKey, 0x028, 0xFFFFFFFF)] →
    s.pending = .write .w32 off v :: .read .w32 off :: rest →
    ∃ t u, step s = .next t ∧ step t = .next u ∧
      u = { t with pending := rest, readData := s.readData ++ [v &&& mask] } ∧
      (∀ q : Reg, q ≠ r → (q = .crc32Out → r ≠ .crc32) → readRegister q t = readRegister q s)

/-- 10_state.md R25, R33, R35, R36, R37, R45: a 32-bit write of an RO register or of a reserved offset is ignored. -/
def Obligations.ReadOnlyRegistersIgnoreWrites : Prop :=
  ∀ (s : State) (off : Offset) (v : Word) (rest : List BusEvent),
    off = 0x004 ∨ off = 0x024 ∨ (0x02C ≤ off.toNat ∧ off.toNat ≤ 0xFFC) → off.toNat % 4 = 0 →
    s.pending = .write .w32 off v :: rest → step s = .next { s with pending := rest }

/-- 10_state.md R23, R24, R25, R33, R35, R36, R37, R45: what a 32-bit host read returns at every offset of the register
map, by its number: CMD 0; STATUS the status word (`StatusWordFields`); the RW registers their fields, zero-extended;
CRC32OUT the CRC-32 value; SCIJ I at [7:0] and J at [15:8]; the SBOX window's word at 0x400 + 4m S[4m + n] at bits
[8n+7:8n] whatever KEYED is; a reserved offset 0. Each changes nothing but the read data delivered. -/
def Obligations.ViewsRead : Prop :=
  ∀ s : State,
    let reads (off : Offset) (d : Word) : Prop :=
      serve (.read .w32 off) s = .next { s with readData := s.readData ++ [d] }
    reads 0x000 0 ∧ reads 0x004 (readRegister .status s) ∧
    reads 0x008 (s.src.zeroExtend 32) ∧ reads 0x00C (s.dst.zeroExtend 32) ∧ reads 0x010 (s.len.zeroExtend 32) ∧
    reads 0x014 (s.keyAddr.zeroExtend 32) ∧ reads 0x018 (s.keyLen.zeroExtend 32) ∧
    reads 0x01C (s.crc16.zeroExtend 32) ∧ reads 0x020 s.crc32 ∧ reads 0x024 (s.crc32 ^^^ 0xFFFFFFFF) ∧
    reads 0x028 s.rxKey ∧ reads 0x02C ((0 : BitVec 16) ++ (s.scJ ++ s.scI)) ∧
    (∀ m, m ≤ 63 → ∃ d : Word, reads (BitVec.ofNat 17 (0x400 + 4 * m)) d ∧
      ∀ n, n < 4 → d.extractLsb' (8 * n) 8 = s.sbox.get (BitVec.ofNat 8 (4 * m + n))) ∧
    (∀ off : Offset, off.toNat % 4 = 0 →
      (0x030 ≤ off.toNat ∧ off.toNat ≤ 0x3FC) ∨ (0x500 ≤ off.toNat ∧ off.toNat ≤ 0xFFC) → reads off 0)

/-- 20_memory.md R63, R67: of the read and write accesses, exactly the naturally aligned ones that are 32 bits wide
where they lie in the register space are admitted and take a step; every other is refused. -/
def Obligations.RefusedAccessesAreExactlyThese : Prop :=
  ∀ (s : State) (w : Width) (off : Offset) (rest : List BusEvent),
    Config.conformingBufSize s.bufSize = true →
    (s.pending = .read w off :: rest ∨ ∃ v, s.pending = .write w off v :: rest) →
    ((off.toNat % w.bytes = 0 ∧ (off.toNat < 0x1000 → w = .w32)) → ∃ t, step s = .next t) ∧
    (¬(off.toNat % w.bytes = 0 ∧ (off.toNat < 0x1000 → w = .w32)) → ∃ r, step s = .refused r)

/-- 20_memory.md R70: a read changes no state of the block: only the read data goes to the host. A write other than a
CMD write is idempotent: the same write again leaves the same state. -/
def Obligations.ReadsAndWritesHaveNoSideEffects : Prop :=
  (∀ (w : Width) (off : Offset) (s t : State), serve (.read w off) s = .next t →
    t = { s with readData := t.readData } ∧ ∃ v, t.readData = s.readData ++ [v]) ∧
  (∀ (w : Width) (off : Offset) (v : Word) (s t : State), off ≠ 0 → serve (.write w off v) s = .next t →
    serve (.write w off v) t = .next t)

/-- 20_memory.md R64, R66: a host write of width w at 0x1000 + a puts byte k of the value at BUF[a+k], changes no other
byte and nothing else, and a host read of width w at 0x1000 + a returns those bytes, the lowest address in bits
[7:0] and the bits above the width 0. -/
def Obligations.BufWindowIsLittleEndian : Prop :=
  ∀ (s : State) (w : Width) (a : Nat) (v : Word) (rest : List BusEvent), s.bufSize ≤ 65536 →
    a % w.bytes = 0 → a + w.bytes ≤ s.bufSize →
    (s.pending = .write w (BitVec.ofNat 17 (0x1000 + a)) v :: rest →
      ∃ t, step s = .next t ∧ t = { s with buf := t.buf, pending := rest } ∧
        (∀ k, k < w.bytes → t.byte (a + k) = v.extractLsb' (8 * k) 8) ∧ SameOutside s t a w.bytes) ∧
    (s.pending = .read w (BitVec.ofNat 17 (0x1000 + a)) :: rest →
      ∃ d : Word, step s = .next { s with pending := rest, readData := s.readData ++ [d] } ∧
        (∀ k, k < w.bytes → d.extractLsb' (8 * k) 8 = s.byte (a + k)) ∧
        d.toNat < 2 ^ (8 * w.bytes))

/-- 20_memory.md R69: in the unmapped region an aligned read gives 0 and an aligned write is ignored. -/
def Obligations.UnmappedReadsZeroIgnoresWrites : Prop :=
  ∀ (s : State) (w : Width) (off : Offset) (v : Word) (rest : List BusEvent),
    Config.conformingBufSize s.bufSize = true → 0x1000 + s.bufSize ≤ off.toNat → off.toNat % w.bytes = 0 →
    (s.pending = .read w off :: rest →
      step s = .next { s with pending := rest, readData := s.readData ++ [0] }) ∧
    (s.pending = .write w off v :: rest → step s = .next { s with pending := rest })

/-- 20_memory.md R62 (that a value is kept right-aligned and placed on the lanes by a conversion is the model's: log
entry 13; that the lanes an access does not use carry 0 is the model's, since R62 leaves it open: log entry 21): an aligned access of n bytes at an offset uses the n byte lanes from lane `offset mod 4` on, counting from
bit 0. Bit i of the value is bit 8 * lane + i of the bus, every other bus bit is 0, and the value is taken off the same
bits. So, for a host access to BUF, each byte travels on the lane of its own address: what a write stores at BUF[a + k]
is the bus byte on lane (a + k) mod 4, and a read puts BUF[a + k] on that lane. -/
def Obligations.ByteLanesCarryTheValue : Prop :=
  (∀ (w : Width) (off : Offset) (v : Word) (i : Nat), off.toNat % w.bytes = 0 → i < 32 →
    (toLanes w off v).getLsbD i =
      (if 8 * (off.toNat % 4) ≤ i ∧ i < 8 * (off.toNat % 4) + 8 * w.bytes then v.getLsbD (i - 8 * (off.toNat % 4))
       else false)) ∧
  (∀ (w : Width) (off : Offset) (bus : Word) (i : Nat), off.toNat % w.bytes = 0 → i < 32 →
    (fromLanes w off bus).getLsbD i =
      (if i < 8 * w.bytes then bus.getLsbD (8 * (off.toNat % 4) + i) else false)) ∧
  (∀ (w : Width) (off : Offset) (v : Word), off.toNat % w.bytes = 0 →
    (fromLanes w off (toLanes w off v)).toNat = v.toNat % 2 ^ (8 * w.bytes)) ∧
  (∀ (s : State) (w : Width) (a : Nat) (bus : Word), s.bufSize ≤ 65536 → a % w.bytes = 0 →
    a + w.bytes ≤ s.bufSize →
    let off : Offset := BitVec.ofNat 17 (0x1000 + a)
    (∃ t, serve (.write w off (fromLanes w off bus)) s = .next t ∧
      ∀ k, k < w.bytes → t.byte (a + k) = bus.extractLsb' (8 * ((a + k) % 4)) 8) ∧
    (∃ d : Word, serve (.read w off) s = .next { s with readData := s.readData ++ [d] } ∧
      ∀ k, k < w.bytes → (toLanes w off d).extractLsb' (8 * ((a + k) % 4)) 8 = s.byte (a + k)))

/-! ### Reset -/

/-- 10_state.md R44, 70_reset_and_hazards.md R230, for the state after reset: every register at its value, STATUS 0,
CRC32OUT 0, BUF and S the draws RESET_BUF and RESET_S. (That the first draw is numbered 0 and BUF_SIZE is 4096 are the
model's: log entries 4 and 6.) -/
def Obligations.ResetHoldsResetValues : Prop :=
  State.reset.src = 0 ∧ State.reset.dst = 0 ∧ State.reset.len = 0 ∧ State.reset.keyAddr = 0 ∧
  State.reset.keyLen = 0 ∧ State.reset.crc16 = 0xFFFF ∧ State.reset.crc32 = 0xFFFFFFFF ∧
  State.reset.rxKey = 0 ∧ State.reset.scI = 0 ∧ State.reset.scJ = 0 ∧ State.reset.keyed = false ∧
  State.reset.err = false ∧ State.reset.errCode = .none ∧ State.reset.errOp = 0 ∧ State.reset.matched = false ∧
  readRegister .status State.reset = 0 ∧ readRegister .crc32Out State.reset = 0 ∧
  (∀ a, State.reset.byte a = Config.resetBuf 0 a) ∧
  (∀ k : Byte, State.reset.sbox.get k = Config.resetS 0 k.toNat)

/-- 70_reset_and_hazards.md R230, R231, R232: the reset input at any later time gives the power-on values, with a new
draw of BUF and S; the state after SRESET differs from it only in BUF and S, which SRESET keeps. (The numbering of the
draws is the model's: log entry 4. That a reset leaves what is still pending and what was read, which the equation with
SRESET says too, is the model's: log entry 11.) -/
def Obligations.ResetInputResetsBlock : Prop :=
  ∀ (s : State) (rest : List BusEvent), s.pending = .reset :: rest →
    ∃ t, step s = .next t ∧ (∀ a, t.byte a = Config.resetBuf (s.draw + 1) a) ∧
      (∀ k : Byte, t.sbox.get k = Config.resetS (s.draw + 1) k.toNat) ∧
      exec .sreset { s with pending := rest } =
        .next { t with buf := s.buf, draw := s.draw, sbox := s.sbox }

/-- 70_reset_and_hazards.md R231: whatever command word a reset abandons, the state afterwards is the reset's in full:
the reset after the command leaves what the reset in its place leaves. (That the reset is an event of the list of
transactions, and that what is still pending and what was read stay, is the model's: log entry 11.) -/
def Obligations.ResetAbandonsCommand : Prop :=
  ∀ (s : State) (v : Word) (rest : List BusEvent), s.pending = commandWrite v :: .reset :: rest →
    ∃ t, step s = .next t ∧ step t = step { s with pending := .reset :: rest }

/-- 70_reset_and_hazards.md R239: a byte that nothing has written since power-on reads as the draw, again and again:
no step but a reset changes the draw, and a byte not listed after a step was not listed before and reads the same.
(That the draws are numbered, by the field `draw`, is the model's: log entry 4. That BUF is a list of the cells written,
in which a written cell stays listed, is the model's: log entry 5.) -/
def Obligations.UnwrittenBytesReadTheDraw : Prop :=
  ∀ s t : State, step s = .next t → s.pending.head? ≠ some .reset →
    t.draw = s.draw ∧
    ∀ a, t.buf.lookup a = none → s.buf.lookup a = none ∧ t.byte a = Config.resetBuf s.draw a ∧
      s.byte a = Config.resetBuf s.draw a

/-! ### The whole machine -/

/-- The invariant holds at reset: nothing is written in BUF yet and STATUS is 0 (70_reset_and_hazards.md R230), KEYED is 0
(10_state.md R40), and BUF_SIZE is the default of 00_scope.md R7. (BUF's canonical form is of the model's own
representation: log entry 5. BUF_SIZE as a field of State, 4096 at reset, is the model's: log entry 6.) -/
def Obligations.InvariantAtReset : Prop := State.reset.Inv

/-- Every step keeps the invariant, from every state that has it: no byte outside BUF is ever written (20_memory.md R61,
60_exceptions.md R203), the status fields agree (10_state.md R25), S is a permutation once keyed (10_state.md R38), and
BUF_SIZE is a conforming one (00_scope.md R7). (BUF's canonical form, addresses strictly rising, is of the model's own
representation: log entry 5. BUF_SIZE as a field of State that no step changes is the model's: log entry 6.) -/
def Obligations.StepKeepsInvariant : Prop := ∀ s t : State, s.Inv → step s = .next t → t.Inv

/-- The block never stops (60_exceptions.md R207, 20_memory.md R75): every command, every CMD write of any word and
every reset takes a step. -/
def Obligations.CommandsAlwaysComplete : Prop :=
  (∀ (i : Instr) (s : State), ∃ t, exec i s = .next t) ∧
  (∀ (s : State) (v : Word) (rest : List BusEvent), s.pending = commandWrite v :: rest → ∃ t, step s = .next t) ∧
  (∀ (s : State) (rest : List BusEvent), s.pending = .reset :: rest → ∃ t, step s = .next t)

/-- The MODEL's representation of BUF is not observable (log entry 5): two states that read alike have steps that
answer alike, whichever cells are listed. -/
def Obligations.OnlyReadsOfBufMatter : Prop :=
  ∀ s t : State, ReadsAlike s t → ResultsAlike (step s) (step t)
end

