-- ==== Sys2Proof/Laws/Memory.lean ====
section
/-! SUPPORT. The laws of BUF's bytes: a read after a write, and that every memory operation keeps the canonical form
and stays within BUF. -/

namespace Sys2Proof.Machine

/-! ### Reading -/

theorem Memory.lookup_write_same (m : Memory) (a : Nat) (b : Byte) : (m.write a b).lookup a = some b := by
  induction m with
  | nil => simp [Memory.write, Memory.lookup]
  | cons c rest ih =>
    obtain ⟨k, v⟩ := c
    simp only [Memory.write]
    split
    · simp [Memory.lookup]
    · split
      · simp [Memory.lookup]
      · next h => simp [Memory.lookup, ih, Ne.symm h]

theorem Memory.lookup_write_other (m : Memory) {a x : Nat} (b : Byte) (h : x ≠ a) :
    (m.write a b).lookup x = m.lookup x := by
  induction m with
  | nil => simp [Memory.write, Memory.lookup, h.symm]
  | cons c rest ih =>
    obtain ⟨k, v⟩ := c
    simp only [Memory.write]
    split
    · simp [Memory.lookup, h.symm]
    · split
      · next hk => subst hk; simp [Memory.lookup, h.symm]
      · simp [Memory.lookup, ih]

theorem Memory.read_write_same (m : Memory) (draw a : Nat) (b : Byte) : (m.write a b).read draw a = b := by
  simp [Memory.read, Memory.lookup_write_same]

theorem Memory.read_write_other (m : Memory) (draw : Nat) {a x : Nat} (b : Byte) (h : x ≠ a) :
    (m.write a b).read draw x = m.read draw x := by
  simp [Memory.read, Memory.lookup_write_other m b h]

/-- One byte written: what every address reads afterwards. -/
theorem Memory.read_write (m : Memory) (draw a x : Nat) (b : Byte) :
    (m.write a b).read draw x = if x = a then b else m.read draw x := by
  split
  · next h => subst h; exact m.read_write_same draw x b
  · next h => exact m.read_write_other draw b h

@[simp] theorem Memory.read_nil (draw a : Nat) : Memory.read [] draw a = Config.resetBuf draw a := rfl

/-! ### The canonical form -/

theorem Memory.risingFrom_mono {m : Memory} {lo lo' : Nat} (h : m.risingFrom lo = true) (hl : lo' ≤ lo) :
    m.risingFrom lo' = true := by
  cases m with
  | nil => rfl
  | cons c rest =>
    simp only [Memory.risingFrom, Bool.and_eq_true, decide_eq_true_eq] at h ⊢
    exact ⟨hl.trans h.1, h.2⟩

theorem Memory.risingFrom_write {m : Memory} {lo a : Nat} (b : Byte) (h : m.risingFrom lo = true) (ha : lo ≤ a) :
    (m.write a b).risingFrom lo = true := by
  induction m generalizing lo with
  | nil => simp [Memory.write, Memory.risingFrom, ha]
  | cons c rest ih =>
    obtain ⟨k, v⟩ := c
    simp only [Memory.risingFrom, Bool.and_eq_true, decide_eq_true_eq] at h
    simp only [Memory.write]
    split
    · next hk =>
      simp only [Memory.risingFrom, Bool.and_eq_true, decide_eq_true_eq]
      exact ⟨ha, hk, h.2⟩
    · split
      · next hk =>
        subst hk
        simp only [Memory.risingFrom, Bool.and_eq_true, decide_eq_true_eq]
        exact ⟨ha, h.2⟩
      · next h1 h2 =>
        simp only [Memory.risingFrom, Bool.and_eq_true, decide_eq_true_eq]
        exact ⟨h.1, ih h.2 (by omega)⟩

theorem Memory.wf_nil : Memory.wf [] = true := rfl

theorem Memory.wf_write {m : Memory} (a : Nat) (b : Byte) (h : m.wf = true) : (m.write a b).wf = true :=
  Memory.risingFrom_write b h (Nat.zero_le a)

theorem Memory.within_nil (n : Nat) : Memory.within [] n = true := rfl

theorem Memory.within_write {m : Memory} {n a : Nat} (b : Byte) (h : m.within n = true) (ha : a < n) :
    (m.write a b).within n = true := by
  induction m with
  | nil => simp [Memory.write, Memory.within, ha]
  | cons c rest ih =>
    obtain ⟨k, v⟩ := c
    simp only [Memory.within, List.all_cons, Bool.and_eq_true, decide_eq_true_eq] at h ih
    simp only [Memory.write]
    split
    · simp only [Memory.within, List.all_cons, Bool.and_eq_true, decide_eq_true_eq]
      exact ⟨ha, h⟩
    · split
      · simp only [Memory.within, List.all_cons, Bool.and_eq_true, decide_eq_true_eq]
        exact ⟨ha, h.2⟩
      · simp only [Memory.within, List.all_cons, Bool.and_eq_true, decide_eq_true_eq]
        exact ⟨h.1, ih h.2⟩

/-! ### Several bytes -/

theorem Memory.wf_writeLE {m : Memory} (a n : Nat) (v : Word) (h : m.wf = true) :
    (m.writeLE a n v).wf = true := by
  induction n generalizing m a v with
  | zero => exact h
  | succ n ih => exact ih _ _ (Memory.wf_write _ _ h)

theorem Memory.within_writeLE {m : Memory} {size : Nat} (a n : Nat) (v : Word) (h : m.within size = true)
    (ha : a + n ≤ size) : (m.writeLE a n v).within size = true := by
  induction n generalizing m a v with
  | zero => exact h
  | succ n ih => exact ih _ _ (Memory.within_write _ h (by omega)) (by omega)

/-- n bytes written (n up to 4): what every address reads afterwards. -/
theorem Memory.read_writeLE (m : Memory) (draw a n x : Nat) (v : Word) :
    (m.writeLE a n v).read draw x =
      if a ≤ x ∧ x < a + n then v.extractLsb' (8 * (x - a)) 8 else m.read draw x := by
  induction n generalizing m a v with
  | zero =>
    rw [if_neg (by omega)]
    rfl
  | succ n ih =>
    simp only [Memory.writeLE]
    rw [ih]
    by_cases h1 : a + 1 ≤ x ∧ x < a + 1 + n
    · rw [if_pos h1, if_pos (by omega)]
      apply BitVec.eq_of_getLsbD_eq
      intro i hi
      simp only [BitVec.getLsbD_extractLsb', BitVec.getLsbD_ushiftRight]
      congr 2
      omega
    · rw [if_neg h1, Memory.read_write]
      by_cases h2 : x = a
      · subst h2
        rw [if_pos rfl, if_pos (by omega)]
        simp
      · rw [if_neg h2, if_neg (by omega)]

/-- Bytes above the n read are 0, byte k below is the byte at a + k: all of `readLE`, for n up to 4. -/
theorem Memory.getLsbD_readLE (m : Memory) (draw a n i : Nat) (hn : n ≤ 4) :
    (m.readLE draw a n).getLsbD i = (decide (i < 8 * n) && (m.read draw (a + i / 8)).getLsbD (i % 8)) := by
  induction n generalizing a i with
  | zero => simp [Memory.readLE]
  | succ n ih =>
    simp only [Memory.readLE, BitVec.getLsbD_or, BitVec.getLsbD_shiftLeft]
    by_cases hi : i < 8
    · have h8 : i / 8 = 0 := by omega
      have h9 : i % 8 = i := by omega
      have h10 : i < 8 * (n + 1) := by omega
      have h11 : i < 32 := by omega
      simp [hi, h8, h9, h10, h11]
    · rw [ih _ _ (by omega)]
      have h8 : (a + 1 + (i - 8) / 8) = a + i / 8 := by omega
      have h9 : (i - 8) % 8 = i % 8 := by omega
      rw [h8, h9]
      have hz : (BitVec.zeroExtend 32 (m.read draw a)).getLsbD i = false := by
        simp [BitVec.getLsbD_setWidth]
        intro _
        exact BitVec.getLsbD_of_ge _ _ (by omega)
      rw [hz]
      by_cases hb : i < 8 * (n + 1)
      · have h32 : i < 32 := by omega
        have h12 : i - 8 < 8 * n := by omega
        simp [hi, hb, h32, h12]
      · have h12 : ¬ (i - 8 < 8 * n) := by omega
        simp [hb, h12]

/-- Byte k of a multi-byte read is the byte at a + k. -/
theorem Memory.extract_readLE (m : Memory) (draw a n k : Nat) (hn : n ≤ 4) (hk : k < n) :
    (m.readLE draw a n).extractLsb' (8 * k) 8 = m.read draw (a + k) := by
  apply BitVec.eq_of_getLsbD_eq
  intro i hi
  rw [BitVec.getLsbD_extractLsb', Memory.getLsbD_readLE _ _ _ _ _ hn, show (8 * k + i) / 8 = k by omega,
    show (8 * k + i) % 8 = i by omega]
  simp [hi, (by omega : 8 * k + i < 8 * n)]

/-- Two memories that read the same give the same multi-byte reads. -/
theorem Memory.readLE_congr {m m' : Memory} {draw draw' : Nat} {a n : Nat}
    (h : ∀ x, a ≤ x → x < a + n → m'.read draw' x = m.read draw x) : m'.readLE draw' a n = m.readLE draw a n := by
  induction n generalizing a with
  | zero => rfl
  | succ n ih =>
    simp only [Memory.readLE]
    rw [h a (le_refl a) (by omega), ih (fun x h1 h2 => h x (by omega) (by omega))]

/-! ### In a state -/

/-- `store`: what every address reads afterwards. That nothing else changes is `State.setBuf`'s. -/
theorem State.byte_store (s : State) (a n x : Nat) (v : Word) :
    (s.store a n v).byte x = if a ≤ x ∧ x < a + n then v.extractLsb' (8 * (x - a)) 8 else s.byte x :=
  s.buf.read_writeLE s.draw a n x v

/-- `bytes`: how many there are. -/
@[simp] theorem State.length_bytes (s : State) (a n : Nat) : (s.bytes a n).length = n := by
  simp [State.bytes]

/-- `bytes`: byte k is BUF[a + k]. -/
theorem State.getElem_bytes (s : State) (a n k : Nat) (h : k < (s.bytes a n).length) :
    (s.bytes a n)[k] = s.byte (a + k) := by
  simp [State.bytes]

/-- `bytes` over two ranges, one after the other. -/
theorem State.bytes_append (s : State) (a n m : Nat) : s.bytes a (n + m) = s.bytes a n ++ s.bytes (a + n) m := by
  simp only [State.bytes, List.range_add, List.map_append, List.map_map]
  congr 1
  apply List.map_congr_left
  intro k _
  simp [Nat.add_assoc]

end Sys2Proof.Machine
end

