-- ==== Sys2Proof/Laws/State.lean ====
section
/-! SUPPORT. What each update of State does to each field: one lemma a field an update, all true by rfl. -/

namespace Sys2Proof.Machine

variable (s : State)

@[simp] theorem State.setBuf_bufSize (m : Memory) : (s.setBuf m).bufSize = s.bufSize := rfl
@[simp] theorem State.setBuf_draw (m : Memory) : (s.setBuf m).draw = s.draw := rfl
@[simp] theorem State.setBuf_buf (m : Memory) : (s.setBuf m).buf = m := rfl
@[simp] theorem State.setBuf_src (m : Memory) : (s.setBuf m).src = s.src := rfl
@[simp] theorem State.setBuf_dst (m : Memory) : (s.setBuf m).dst = s.dst := rfl
@[simp] theorem State.setBuf_len (m : Memory) : (s.setBuf m).len = s.len := rfl
@[simp] theorem State.setBuf_keyAddr (m : Memory) : (s.setBuf m).keyAddr = s.keyAddr := rfl
@[simp] theorem State.setBuf_keyLen (m : Memory) : (s.setBuf m).keyLen = s.keyLen := rfl
@[simp] theorem State.setBuf_crc16 (m : Memory) : (s.setBuf m).crc16 = s.crc16 := rfl
@[simp] theorem State.setBuf_crc32 (m : Memory) : (s.setBuf m).crc32 = s.crc32 := rfl
@[simp] theorem State.setBuf_rxKey (m : Memory) : (s.setBuf m).rxKey = s.rxKey := rfl
@[simp] theorem State.setBuf_sbox (m : Memory) : (s.setBuf m).sbox = s.sbox := rfl
@[simp] theorem State.setBuf_scI (m : Memory) : (s.setBuf m).scI = s.scI := rfl
@[simp] theorem State.setBuf_scJ (m : Memory) : (s.setBuf m).scJ = s.scJ := rfl
@[simp] theorem State.setBuf_keyed (m : Memory) : (s.setBuf m).keyed = s.keyed := rfl
@[simp] theorem State.setBuf_err (m : Memory) : (s.setBuf m).err = s.err := rfl
@[simp] theorem State.setBuf_errCode (m : Memory) : (s.setBuf m).errCode = s.errCode := rfl
@[simp] theorem State.setBuf_errOp (m : Memory) : (s.setBuf m).errOp = s.errOp := rfl
@[simp] theorem State.setBuf_matched (m : Memory) : (s.setBuf m).matched = s.matched := rfl
@[simp] theorem State.setBuf_pending (m : Memory) : (s.setBuf m).pending = s.pending := rfl
@[simp] theorem State.setBuf_readData (m : Memory) : (s.setBuf m).readData = s.readData := rfl

@[simp] theorem State.setSrc_bufSize (v : Half) : (s.setSrc v).bufSize = s.bufSize := rfl
@[simp] theorem State.setSrc_draw (v : Half) : (s.setSrc v).draw = s.draw := rfl
@[simp] theorem State.setSrc_buf (v : Half) : (s.setSrc v).buf = s.buf := rfl
@[simp] theorem State.setSrc_src (v : Half) : (s.setSrc v).src = v := rfl
@[simp] theorem State.setSrc_dst (v : Half) : (s.setSrc v).dst = s.dst := rfl
@[simp] theorem State.setSrc_len (v : Half) : (s.setSrc v).len = s.len := rfl
@[simp] theorem State.setSrc_keyAddr (v : Half) : (s.setSrc v).keyAddr = s.keyAddr := rfl
@[simp] theorem State.setSrc_keyLen (v : Half) : (s.setSrc v).keyLen = s.keyLen := rfl
@[simp] theorem State.setSrc_crc16 (v : Half) : (s.setSrc v).crc16 = s.crc16 := rfl
@[simp] theorem State.setSrc_crc32 (v : Half) : (s.setSrc v).crc32 = s.crc32 := rfl
@[simp] theorem State.setSrc_rxKey (v : Half) : (s.setSrc v).rxKey = s.rxKey := rfl
@[simp] theorem State.setSrc_sbox (v : Half) : (s.setSrc v).sbox = s.sbox := rfl
@[simp] theorem State.setSrc_scI (v : Half) : (s.setSrc v).scI = s.scI := rfl
@[simp] theorem State.setSrc_scJ (v : Half) : (s.setSrc v).scJ = s.scJ := rfl
@[simp] theorem State.setSrc_keyed (v : Half) : (s.setSrc v).keyed = s.keyed := rfl
@[simp] theorem State.setSrc_err (v : Half) : (s.setSrc v).err = s.err := rfl
@[simp] theorem State.setSrc_errCode (v : Half) : (s.setSrc v).errCode = s.errCode := rfl
@[simp] theorem State.setSrc_errOp (v : Half) : (s.setSrc v).errOp = s.errOp := rfl
@[simp] theorem State.setSrc_matched (v : Half) : (s.setSrc v).matched = s.matched := rfl
@[simp] theorem State.setSrc_pending (v : Half) : (s.setSrc v).pending = s.pending := rfl
@[simp] theorem State.setSrc_readData (v : Half) : (s.setSrc v).readData = s.readData := rfl

@[simp] theorem State.setDst_bufSize (v : Half) : (s.setDst v).bufSize = s.bufSize := rfl
@[simp] theorem State.setDst_draw (v : Half) : (s.setDst v).draw = s.draw := rfl
@[simp] theorem State.setDst_buf (v : Half) : (s.setDst v).buf = s.buf := rfl
@[simp] theorem State.setDst_src (v : Half) : (s.setDst v).src = s.src := rfl
@[simp] theorem State.setDst_dst (v : Half) : (s.setDst v).dst = v := rfl
@[simp] theorem State.setDst_len (v : Half) : (s.setDst v).len = s.len := rfl
@[simp] theorem State.setDst_keyAddr (v : Half) : (s.setDst v).keyAddr = s.keyAddr := rfl
@[simp] theorem State.setDst_keyLen (v : Half) : (s.setDst v).keyLen = s.keyLen := rfl
@[simp] theorem State.setDst_crc16 (v : Half) : (s.setDst v).crc16 = s.crc16 := rfl
@[simp] theorem State.setDst_crc32 (v : Half) : (s.setDst v).crc32 = s.crc32 := rfl
@[simp] theorem State.setDst_rxKey (v : Half) : (s.setDst v).rxKey = s.rxKey := rfl
@[simp] theorem State.setDst_sbox (v : Half) : (s.setDst v).sbox = s.sbox := rfl
@[simp] theorem State.setDst_scI (v : Half) : (s.setDst v).scI = s.scI := rfl
@[simp] theorem State.setDst_scJ (v : Half) : (s.setDst v).scJ = s.scJ := rfl
@[simp] theorem State.setDst_keyed (v : Half) : (s.setDst v).keyed = s.keyed := rfl
@[simp] theorem State.setDst_err (v : Half) : (s.setDst v).err = s.err := rfl
@[simp] theorem State.setDst_errCode (v : Half) : (s.setDst v).errCode = s.errCode := rfl
@[simp] theorem State.setDst_errOp (v : Half) : (s.setDst v).errOp = s.errOp := rfl
@[simp] theorem State.setDst_matched (v : Half) : (s.setDst v).matched = s.matched := rfl
@[simp] theorem State.setDst_pending (v : Half) : (s.setDst v).pending = s.pending := rfl
@[simp] theorem State.setDst_readData (v : Half) : (s.setDst v).readData = s.readData := rfl

@[simp] theorem State.setLen_bufSize (v : Half) : (s.setLen v).bufSize = s.bufSize := rfl
@[simp] theorem State.setLen_draw (v : Half) : (s.setLen v).draw = s.draw := rfl
@[simp] theorem State.setLen_buf (v : Half) : (s.setLen v).buf = s.buf := rfl
@[simp] theorem State.setLen_src (v : Half) : (s.setLen v).src = s.src := rfl
@[simp] theorem State.setLen_dst (v : Half) : (s.setLen v).dst = s.dst := rfl
@[simp] theorem State.setLen_len (v : Half) : (s.setLen v).len = v := rfl
@[simp] theorem State.setLen_keyAddr (v : Half) : (s.setLen v).keyAddr = s.keyAddr := rfl
@[simp] theorem State.setLen_keyLen (v : Half) : (s.setLen v).keyLen = s.keyLen := rfl
@[simp] theorem State.setLen_crc16 (v : Half) : (s.setLen v).crc16 = s.crc16 := rfl
@[simp] theorem State.setLen_crc32 (v : Half) : (s.setLen v).crc32 = s.crc32 := rfl
@[simp] theorem State.setLen_rxKey (v : Half) : (s.setLen v).rxKey = s.rxKey := rfl
@[simp] theorem State.setLen_sbox (v : Half) : (s.setLen v).sbox = s.sbox := rfl
@[simp] theorem State.setLen_scI (v : Half) : (s.setLen v).scI = s.scI := rfl
@[simp] theorem State.setLen_scJ (v : Half) : (s.setLen v).scJ = s.scJ := rfl
@[simp] theorem State.setLen_keyed (v : Half) : (s.setLen v).keyed = s.keyed := rfl
@[simp] theorem State.setLen_err (v : Half) : (s.setLen v).err = s.err := rfl
@[simp] theorem State.setLen_errCode (v : Half) : (s.setLen v).errCode = s.errCode := rfl
@[simp] theorem State.setLen_errOp (v : Half) : (s.setLen v).errOp = s.errOp := rfl
@[simp] theorem State.setLen_matched (v : Half) : (s.setLen v).matched = s.matched := rfl
@[simp] theorem State.setLen_pending (v : Half) : (s.setLen v).pending = s.pending := rfl
@[simp] theorem State.setLen_readData (v : Half) : (s.setLen v).readData = s.readData := rfl

@[simp] theorem State.setKeyAddr_bufSize (v : Half) : (s.setKeyAddr v).bufSize = s.bufSize := rfl
@[simp] theorem State.setKeyAddr_draw (v : Half) : (s.setKeyAddr v).draw = s.draw := rfl
@[simp] theorem State.setKeyAddr_buf (v : Half) : (s.setKeyAddr v).buf = s.buf := rfl
@[simp] theorem State.setKeyAddr_src (v : Half) : (s.setKeyAddr v).src = s.src := rfl
@[simp] theorem State.setKeyAddr_dst (v : Half) : (s.setKeyAddr v).dst = s.dst := rfl
@[simp] theorem State.setKeyAddr_len (v : Half) : (s.setKeyAddr v).len = s.len := rfl
@[simp] theorem State.setKeyAddr_keyAddr (v : Half) : (s.setKeyAddr v).keyAddr = v := rfl
@[simp] theorem State.setKeyAddr_keyLen (v : Half) : (s.setKeyAddr v).keyLen = s.keyLen := rfl
@[simp] theorem State.setKeyAddr_crc16 (v : Half) : (s.setKeyAddr v).crc16 = s.crc16 := rfl
@[simp] theorem State.setKeyAddr_crc32 (v : Half) : (s.setKeyAddr v).crc32 = s.crc32 := rfl
@[simp] theorem State.setKeyAddr_rxKey (v : Half) : (s.setKeyAddr v).rxKey = s.rxKey := rfl
@[simp] theorem State.setKeyAddr_sbox (v : Half) : (s.setKeyAddr v).sbox = s.sbox := rfl
@[simp] theorem State.setKeyAddr_scI (v : Half) : (s.setKeyAddr v).scI = s.scI := rfl
@[simp] theorem State.setKeyAddr_scJ (v : Half) : (s.setKeyAddr v).scJ = s.scJ := rfl
@[simp] theorem State.setKeyAddr_keyed (v : Half) : (s.setKeyAddr v).keyed = s.keyed := rfl
@[simp] theorem State.setKeyAddr_err (v : Half) : (s.setKeyAddr v).err = s.err := rfl
@[simp] theorem State.setKeyAddr_errCode (v : Half) : (s.setKeyAddr v).errCode = s.errCode := rfl
@[simp] theorem State.setKeyAddr_errOp (v : Half) : (s.setKeyAddr v).errOp = s.errOp := rfl
@[simp] theorem State.setKeyAddr_matched (v : Half) : (s.setKeyAddr v).matched = s.matched := rfl
@[simp] theorem State.setKeyAddr_pending (v : Half) : (s.setKeyAddr v).pending = s.pending := rfl
@[simp] theorem State.setKeyAddr_readData (v : Half) : (s.setKeyAddr v).readData = s.readData := rfl

@[simp] theorem State.setKeyLen_bufSize (v : BitVec 9) : (s.setKeyLen v).bufSize = s.bufSize := rfl
@[simp] theorem State.setKeyLen_draw (v : BitVec 9) : (s.setKeyLen v).draw = s.draw := rfl
@[simp] theorem State.setKeyLen_buf (v : BitVec 9) : (s.setKeyLen v).buf = s.buf := rfl
@[simp] theorem State.setKeyLen_src (v : BitVec 9) : (s.setKeyLen v).src = s.src := rfl
@[simp] theorem State.setKeyLen_dst (v : BitVec 9) : (s.setKeyLen v).dst = s.dst := rfl
@[simp] theorem State.setKeyLen_len (v : BitVec 9) : (s.setKeyLen v).len = s.len := rfl
@[simp] theorem State.setKeyLen_keyAddr (v : BitVec 9) : (s.setKeyLen v).keyAddr = s.keyAddr := rfl
@[simp] theorem State.setKeyLen_keyLen (v : BitVec 9) : (s.setKeyLen v).keyLen = v := rfl
@[simp] theorem State.setKeyLen_crc16 (v : BitVec 9) : (s.setKeyLen v).crc16 = s.crc16 := rfl
@[simp] theorem State.setKeyLen_crc32 (v : BitVec 9) : (s.setKeyLen v).crc32 = s.crc32 := rfl
@[simp] theorem State.setKeyLen_rxKey (v : BitVec 9) : (s.setKeyLen v).rxKey = s.rxKey := rfl
@[simp] theorem State.setKeyLen_sbox (v : BitVec 9) : (s.setKeyLen v).sbox = s.sbox := rfl
@[simp] theorem State.setKeyLen_scI (v : BitVec 9) : (s.setKeyLen v).scI = s.scI := rfl
@[simp] theorem State.setKeyLen_scJ (v : BitVec 9) : (s.setKeyLen v).scJ = s.scJ := rfl
@[simp] theorem State.setKeyLen_keyed (v : BitVec 9) : (s.setKeyLen v).keyed = s.keyed := rfl
@[simp] theorem State.setKeyLen_err (v : BitVec 9) : (s.setKeyLen v).err = s.err := rfl
@[simp] theorem State.setKeyLen_errCode (v : BitVec 9) : (s.setKeyLen v).errCode = s.errCode := rfl
@[simp] theorem State.setKeyLen_errOp (v : BitVec 9) : (s.setKeyLen v).errOp = s.errOp := rfl
@[simp] theorem State.setKeyLen_matched (v : BitVec 9) : (s.setKeyLen v).matched = s.matched := rfl
@[simp] theorem State.setKeyLen_pending (v : BitVec 9) : (s.setKeyLen v).pending = s.pending := rfl
@[simp] theorem State.setKeyLen_readData (v : BitVec 9) : (s.setKeyLen v).readData = s.readData := rfl

@[simp] theorem State.setCrc16_bufSize (v : Half) : (s.setCrc16 v).bufSize = s.bufSize := rfl
@[simp] theorem State.setCrc16_draw (v : Half) : (s.setCrc16 v).draw = s.draw := rfl
@[simp] theorem State.setCrc16_buf (v : Half) : (s.setCrc16 v).buf = s.buf := rfl
@[simp] theorem State.setCrc16_src (v : Half) : (s.setCrc16 v).src = s.src := rfl
@[simp] theorem State.setCrc16_dst (v : Half) : (s.setCrc16 v).dst = s.dst := rfl
@[simp] theorem State.setCrc16_len (v : Half) : (s.setCrc16 v).len = s.len := rfl
@[simp] theorem State.setCrc16_keyAddr (v : Half) : (s.setCrc16 v).keyAddr = s.keyAddr := rfl
@[simp] theorem State.setCrc16_keyLen (v : Half) : (s.setCrc16 v).keyLen = s.keyLen := rfl
@[simp] theorem State.setCrc16_crc16 (v : Half) : (s.setCrc16 v).crc16 = v := rfl
@[simp] theorem State.setCrc16_crc32 (v : Half) : (s.setCrc16 v).crc32 = s.crc32 := rfl
@[simp] theorem State.setCrc16_rxKey (v : Half) : (s.setCrc16 v).rxKey = s.rxKey := rfl
@[simp] theorem State.setCrc16_sbox (v : Half) : (s.setCrc16 v).sbox = s.sbox := rfl
@[simp] theorem State.setCrc16_scI (v : Half) : (s.setCrc16 v).scI = s.scI := rfl
@[simp] theorem State.setCrc16_scJ (v : Half) : (s.setCrc16 v).scJ = s.scJ := rfl
@[simp] theorem State.setCrc16_keyed (v : Half) : (s.setCrc16 v).keyed = s.keyed := rfl
@[simp] theorem State.setCrc16_err (v : Half) : (s.setCrc16 v).err = s.err := rfl
@[simp] theorem State.setCrc16_errCode (v : Half) : (s.setCrc16 v).errCode = s.errCode := rfl
@[simp] theorem State.setCrc16_errOp (v : Half) : (s.setCrc16 v).errOp = s.errOp := rfl
@[simp] theorem State.setCrc16_matched (v : Half) : (s.setCrc16 v).matched = s.matched := rfl
@[simp] theorem State.setCrc16_pending (v : Half) : (s.setCrc16 v).pending = s.pending := rfl
@[simp] theorem State.setCrc16_readData (v : Half) : (s.setCrc16 v).readData = s.readData := rfl

@[simp] theorem State.setCrc32_bufSize (v : Word) : (s.setCrc32 v).bufSize = s.bufSize := rfl
@[simp] theorem State.setCrc32_draw (v : Word) : (s.setCrc32 v).draw = s.draw := rfl
@[simp] theorem State.setCrc32_buf (v : Word) : (s.setCrc32 v).buf = s.buf := rfl
@[simp] theorem State.setCrc32_src (v : Word) : (s.setCrc32 v).src = s.src := rfl
@[simp] theorem State.setCrc32_dst (v : Word) : (s.setCrc32 v).dst = s.dst := rfl
@[simp] theorem State.setCrc32_len (v : Word) : (s.setCrc32 v).len = s.len := rfl
@[simp] theorem State.setCrc32_keyAddr (v : Word) : (s.setCrc32 v).keyAddr = s.keyAddr := rfl
@[simp] theorem State.setCrc32_keyLen (v : Word) : (s.setCrc32 v).keyLen = s.keyLen := rfl
@[simp] theorem State.setCrc32_crc16 (v : Word) : (s.setCrc32 v).crc16 = s.crc16 := rfl
@[simp] theorem State.setCrc32_crc32 (v : Word) : (s.setCrc32 v).crc32 = v := rfl
@[simp] theorem State.setCrc32_rxKey (v : Word) : (s.setCrc32 v).rxKey = s.rxKey := rfl
@[simp] theorem State.setCrc32_sbox (v : Word) : (s.setCrc32 v).sbox = s.sbox := rfl
@[simp] theorem State.setCrc32_scI (v : Word) : (s.setCrc32 v).scI = s.scI := rfl
@[simp] theorem State.setCrc32_scJ (v : Word) : (s.setCrc32 v).scJ = s.scJ := rfl
@[simp] theorem State.setCrc32_keyed (v : Word) : (s.setCrc32 v).keyed = s.keyed := rfl
@[simp] theorem State.setCrc32_err (v : Word) : (s.setCrc32 v).err = s.err := rfl
@[simp] theorem State.setCrc32_errCode (v : Word) : (s.setCrc32 v).errCode = s.errCode := rfl
@[simp] theorem State.setCrc32_errOp (v : Word) : (s.setCrc32 v).errOp = s.errOp := rfl
@[simp] theorem State.setCrc32_matched (v : Word) : (s.setCrc32 v).matched = s.matched := rfl
@[simp] theorem State.setCrc32_pending (v : Word) : (s.setCrc32 v).pending = s.pending := rfl
@[simp] theorem State.setCrc32_readData (v : Word) : (s.setCrc32 v).readData = s.readData := rfl

@[simp] theorem State.setRxKey_bufSize (v : Word) : (s.setRxKey v).bufSize = s.bufSize := rfl
@[simp] theorem State.setRxKey_draw (v : Word) : (s.setRxKey v).draw = s.draw := rfl
@[simp] theorem State.setRxKey_buf (v : Word) : (s.setRxKey v).buf = s.buf := rfl
@[simp] theorem State.setRxKey_src (v : Word) : (s.setRxKey v).src = s.src := rfl
@[simp] theorem State.setRxKey_dst (v : Word) : (s.setRxKey v).dst = s.dst := rfl
@[simp] theorem State.setRxKey_len (v : Word) : (s.setRxKey v).len = s.len := rfl
@[simp] theorem State.setRxKey_keyAddr (v : Word) : (s.setRxKey v).keyAddr = s.keyAddr := rfl
@[simp] theorem State.setRxKey_keyLen (v : Word) : (s.setRxKey v).keyLen = s.keyLen := rfl
@[simp] theorem State.setRxKey_crc16 (v : Word) : (s.setRxKey v).crc16 = s.crc16 := rfl
@[simp] theorem State.setRxKey_crc32 (v : Word) : (s.setRxKey v).crc32 = s.crc32 := rfl
@[simp] theorem State.setRxKey_rxKey (v : Word) : (s.setRxKey v).rxKey = v := rfl
@[simp] theorem State.setRxKey_sbox (v : Word) : (s.setRxKey v).sbox = s.sbox := rfl
@[simp] theorem State.setRxKey_scI (v : Word) : (s.setRxKey v).scI = s.scI := rfl
@[simp] theorem State.setRxKey_scJ (v : Word) : (s.setRxKey v).scJ = s.scJ := rfl
@[simp] theorem State.setRxKey_keyed (v : Word) : (s.setRxKey v).keyed = s.keyed := rfl
@[simp] theorem State.setRxKey_err (v : Word) : (s.setRxKey v).err = s.err := rfl
@[simp] theorem State.setRxKey_errCode (v : Word) : (s.setRxKey v).errCode = s.errCode := rfl
@[simp] theorem State.setRxKey_errOp (v : Word) : (s.setRxKey v).errOp = s.errOp := rfl
@[simp] theorem State.setRxKey_matched (v : Word) : (s.setRxKey v).matched = s.matched := rfl
@[simp] theorem State.setRxKey_pending (v : Word) : (s.setRxKey v).pending = s.pending := rfl
@[simp] theorem State.setRxKey_readData (v : Word) : (s.setRxKey v).readData = s.readData := rfl

@[simp] theorem State.setSbox_bufSize (t : SBox) : (s.setSbox t).bufSize = s.bufSize := rfl
@[simp] theorem State.setSbox_draw (t : SBox) : (s.setSbox t).draw = s.draw := rfl
@[simp] theorem State.setSbox_buf (t : SBox) : (s.setSbox t).buf = s.buf := rfl
@[simp] theorem State.setSbox_src (t : SBox) : (s.setSbox t).src = s.src := rfl
@[simp] theorem State.setSbox_dst (t : SBox) : (s.setSbox t).dst = s.dst := rfl
@[simp] theorem State.setSbox_len (t : SBox) : (s.setSbox t).len = s.len := rfl
@[simp] theorem State.setSbox_keyAddr (t : SBox) : (s.setSbox t).keyAddr = s.keyAddr := rfl
@[simp] theorem State.setSbox_keyLen (t : SBox) : (s.setSbox t).keyLen = s.keyLen := rfl
@[simp] theorem State.setSbox_crc16 (t : SBox) : (s.setSbox t).crc16 = s.crc16 := rfl
@[simp] theorem State.setSbox_crc32 (t : SBox) : (s.setSbox t).crc32 = s.crc32 := rfl
@[simp] theorem State.setSbox_rxKey (t : SBox) : (s.setSbox t).rxKey = s.rxKey := rfl
@[simp] theorem State.setSbox_sbox (t : SBox) : (s.setSbox t).sbox = t := rfl
@[simp] theorem State.setSbox_scI (t : SBox) : (s.setSbox t).scI = s.scI := rfl
@[simp] theorem State.setSbox_scJ (t : SBox) : (s.setSbox t).scJ = s.scJ := rfl
@[simp] theorem State.setSbox_keyed (t : SBox) : (s.setSbox t).keyed = s.keyed := rfl
@[simp] theorem State.setSbox_err (t : SBox) : (s.setSbox t).err = s.err := rfl
@[simp] theorem State.setSbox_errCode (t : SBox) : (s.setSbox t).errCode = s.errCode := rfl
@[simp] theorem State.setSbox_errOp (t : SBox) : (s.setSbox t).errOp = s.errOp := rfl
@[simp] theorem State.setSbox_matched (t : SBox) : (s.setSbox t).matched = s.matched := rfl
@[simp] theorem State.setSbox_pending (t : SBox) : (s.setSbox t).pending = s.pending := rfl
@[simp] theorem State.setSbox_readData (t : SBox) : (s.setSbox t).readData = s.readData := rfl

@[simp] theorem State.setIndices_bufSize (i : Byte) (j : Byte) : (s.setIndices i j).bufSize = s.bufSize := rfl
@[simp] theorem State.setIndices_draw (i : Byte) (j : Byte) : (s.setIndices i j).draw = s.draw := rfl
@[simp] theorem State.setIndices_buf (i : Byte) (j : Byte) : (s.setIndices i j).buf = s.buf := rfl
@[simp] theorem State.setIndices_src (i : Byte) (j : Byte) : (s.setIndices i j).src = s.src := rfl
@[simp] theorem State.setIndices_dst (i : Byte) (j : Byte) : (s.setIndices i j).dst = s.dst := rfl
@[simp] theorem State.setIndices_len (i : Byte) (j : Byte) : (s.setIndices i j).len = s.len := rfl
@[simp] theorem State.setIndices_keyAddr (i : Byte) (j : Byte) : (s.setIndices i j).keyAddr = s.keyAddr := rfl
@[simp] theorem State.setIndices_keyLen (i : Byte) (j : Byte) : (s.setIndices i j).keyLen = s.keyLen := rfl
@[simp] theorem State.setIndices_crc16 (i : Byte) (j : Byte) : (s.setIndices i j).crc16 = s.crc16 := rfl
@[simp] theorem State.setIndices_crc32 (i : Byte) (j : Byte) : (s.setIndices i j).crc32 = s.crc32 := rfl
@[simp] theorem State.setIndices_rxKey (i : Byte) (j : Byte) : (s.setIndices i j).rxKey = s.rxKey := rfl
@[simp] theorem State.setIndices_sbox (i : Byte) (j : Byte) : (s.setIndices i j).sbox = s.sbox := rfl
@[simp] theorem State.setIndices_scI (i : Byte) (j : Byte) : (s.setIndices i j).scI = i := rfl
@[simp] theorem State.setIndices_scJ (i : Byte) (j : Byte) : (s.setIndices i j).scJ = j := rfl
@[simp] theorem State.setIndices_keyed (i : Byte) (j : Byte) : (s.setIndices i j).keyed = s.keyed := rfl
@[simp] theorem State.setIndices_err (i : Byte) (j : Byte) : (s.setIndices i j).err = s.err := rfl
@[simp] theorem State.setIndices_errCode (i : Byte) (j : Byte) : (s.setIndices i j).errCode = s.errCode := rfl
@[simp] theorem State.setIndices_errOp (i : Byte) (j : Byte) : (s.setIndices i j).errOp = s.errOp := rfl
@[simp] theorem State.setIndices_matched (i : Byte) (j : Byte) : (s.setIndices i j).matched = s.matched := rfl
@[simp] theorem State.setIndices_pending (i : Byte) (j : Byte) : (s.setIndices i j).pending = s.pending := rfl
@[simp] theorem State.setIndices_readData (i : Byte) (j : Byte) : (s.setIndices i j).readData = s.readData := rfl

@[simp] theorem State.setKeyed_bufSize (b : Bool) : (s.setKeyed b).bufSize = s.bufSize := rfl
@[simp] theorem State.setKeyed_draw (b : Bool) : (s.setKeyed b).draw = s.draw := rfl
@[simp] theorem State.setKeyed_buf (b : Bool) : (s.setKeyed b).buf = s.buf := rfl
@[simp] theorem State.setKeyed_src (b : Bool) : (s.setKeyed b).src = s.src := rfl
@[simp] theorem State.setKeyed_dst (b : Bool) : (s.setKeyed b).dst = s.dst := rfl
@[simp] theorem State.setKeyed_len (b : Bool) : (s.setKeyed b).len = s.len := rfl
@[simp] theorem State.setKeyed_keyAddr (b : Bool) : (s.setKeyed b).keyAddr = s.keyAddr := rfl
@[simp] theorem State.setKeyed_keyLen (b : Bool) : (s.setKeyed b).keyLen = s.keyLen := rfl
@[simp] theorem State.setKeyed_crc16 (b : Bool) : (s.setKeyed b).crc16 = s.crc16 := rfl
@[simp] theorem State.setKeyed_crc32 (b : Bool) : (s.setKeyed b).crc32 = s.crc32 := rfl
@[simp] theorem State.setKeyed_rxKey (b : Bool) : (s.setKeyed b).rxKey = s.rxKey := rfl
@[simp] theorem State.setKeyed_sbox (b : Bool) : (s.setKeyed b).sbox = s.sbox := rfl
@[simp] theorem State.setKeyed_scI (b : Bool) : (s.setKeyed b).scI = s.scI := rfl
@[simp] theorem State.setKeyed_scJ (b : Bool) : (s.setKeyed b).scJ = s.scJ := rfl
@[simp] theorem State.setKeyed_keyed (b : Bool) : (s.setKeyed b).keyed = b := rfl
@[simp] theorem State.setKeyed_err (b : Bool) : (s.setKeyed b).err = s.err := rfl
@[simp] theorem State.setKeyed_errCode (b : Bool) : (s.setKeyed b).errCode = s.errCode := rfl
@[simp] theorem State.setKeyed_errOp (b : Bool) : (s.setKeyed b).errOp = s.errOp := rfl
@[simp] theorem State.setKeyed_matched (b : Bool) : (s.setKeyed b).matched = s.matched := rfl
@[simp] theorem State.setKeyed_pending (b : Bool) : (s.setKeyed b).pending = s.pending := rfl
@[simp] theorem State.setKeyed_readData (b : Bool) : (s.setKeyed b).readData = s.readData := rfl

@[simp] theorem State.setErr_bufSize (b : Bool) : (s.setErr b).bufSize = s.bufSize := rfl
@[simp] theorem State.setErr_draw (b : Bool) : (s.setErr b).draw = s.draw := rfl
@[simp] theorem State.setErr_buf (b : Bool) : (s.setErr b).buf = s.buf := rfl
@[simp] theorem State.setErr_src (b : Bool) : (s.setErr b).src = s.src := rfl
@[simp] theorem State.setErr_dst (b : Bool) : (s.setErr b).dst = s.dst := rfl
@[simp] theorem State.setErr_len (b : Bool) : (s.setErr b).len = s.len := rfl
@[simp] theorem State.setErr_keyAddr (b : Bool) : (s.setErr b).keyAddr = s.keyAddr := rfl
@[simp] theorem State.setErr_keyLen (b : Bool) : (s.setErr b).keyLen = s.keyLen := rfl
@[simp] theorem State.setErr_crc16 (b : Bool) : (s.setErr b).crc16 = s.crc16 := rfl
@[simp] theorem State.setErr_crc32 (b : Bool) : (s.setErr b).crc32 = s.crc32 := rfl
@[simp] theorem State.setErr_rxKey (b : Bool) : (s.setErr b).rxKey = s.rxKey := rfl
@[simp] theorem State.setErr_sbox (b : Bool) : (s.setErr b).sbox = s.sbox := rfl
@[simp] theorem State.setErr_scI (b : Bool) : (s.setErr b).scI = s.scI := rfl
@[simp] theorem State.setErr_scJ (b : Bool) : (s.setErr b).scJ = s.scJ := rfl
@[simp] theorem State.setErr_keyed (b : Bool) : (s.setErr b).keyed = s.keyed := rfl
@[simp] theorem State.setErr_err (b : Bool) : (s.setErr b).err = b := rfl
@[simp] theorem State.setErr_errCode (b : Bool) : (s.setErr b).errCode = s.errCode := rfl
@[simp] theorem State.setErr_errOp (b : Bool) : (s.setErr b).errOp = s.errOp := rfl
@[simp] theorem State.setErr_matched (b : Bool) : (s.setErr b).matched = s.matched := rfl
@[simp] theorem State.setErr_pending (b : Bool) : (s.setErr b).pending = s.pending := rfl
@[simp] theorem State.setErr_readData (b : Bool) : (s.setErr b).readData = s.readData := rfl

@[simp] theorem State.setErrRecord_bufSize (code : ErrorCode) (op : Byte) : (s.setErrRecord code op).bufSize = s.bufSize := rfl
@[simp] theorem State.setErrRecord_draw (code : ErrorCode) (op : Byte) : (s.setErrRecord code op).draw = s.draw := rfl
@[simp] theorem State.setErrRecord_buf (code : ErrorCode) (op : Byte) : (s.setErrRecord code op).buf = s.buf := rfl
@[simp] theorem State.setErrRecord_src (code : ErrorCode) (op : Byte) : (s.setErrRecord code op).src = s.src := rfl
@[simp] theorem State.setErrRecord_dst (code : ErrorCode) (op : Byte) : (s.setErrRecord code op).dst = s.dst := rfl
@[simp] theorem State.setErrRecord_len (code : ErrorCode) (op : Byte) : (s.setErrRecord code op).len = s.len := rfl
@[simp] theorem State.setErrRecord_keyAddr (code : ErrorCode) (op : Byte) : (s.setErrRecord code op).keyAddr = s.keyAddr := rfl
@[simp] theorem State.setErrRecord_keyLen (code : ErrorCode) (op : Byte) : (s.setErrRecord code op).keyLen = s.keyLen := rfl
@[simp] theorem State.setErrRecord_crc16 (code : ErrorCode) (op : Byte) : (s.setErrRecord code op).crc16 = s.crc16 := rfl
@[simp] theorem State.setErrRecord_crc32 (code : ErrorCode) (op : Byte) : (s.setErrRecord code op).crc32 = s.crc32 := rfl
@[simp] theorem State.setErrRecord_rxKey (code : ErrorCode) (op : Byte) : (s.setErrRecord code op).rxKey = s.rxKey := rfl
@[simp] theorem State.setErrRecord_sbox (code : ErrorCode) (op : Byte) : (s.setErrRecord code op).sbox = s.sbox := rfl
@[simp] theorem State.setErrRecord_scI (code : ErrorCode) (op : Byte) : (s.setErrRecord code op).scI = s.scI := rfl
@[simp] theorem State.setErrRecord_scJ (code : ErrorCode) (op : Byte) : (s.setErrRecord code op).scJ = s.scJ := rfl
@[simp] theorem State.setErrRecord_keyed (code : ErrorCode) (op : Byte) : (s.setErrRecord code op).keyed = s.keyed := rfl
@[simp] theorem State.setErrRecord_err (code : ErrorCode) (op : Byte) : (s.setErrRecord code op).err = s.err := rfl
@[simp] theorem State.setErrRecord_errCode (code : ErrorCode) (op : Byte) : (s.setErrRecord code op).errCode = code := rfl
@[simp] theorem State.setErrRecord_errOp (code : ErrorCode) (op : Byte) : (s.setErrRecord code op).errOp = op := rfl
@[simp] theorem State.setErrRecord_matched (code : ErrorCode) (op : Byte) : (s.setErrRecord code op).matched = s.matched := rfl
@[simp] theorem State.setErrRecord_pending (code : ErrorCode) (op : Byte) : (s.setErrRecord code op).pending = s.pending := rfl
@[simp] theorem State.setErrRecord_readData (code : ErrorCode) (op : Byte) : (s.setErrRecord code op).readData = s.readData := rfl

@[simp] theorem State.setMatched_bufSize (b : Bool) : (s.setMatched b).bufSize = s.bufSize := rfl
@[simp] theorem State.setMatched_draw (b : Bool) : (s.setMatched b).draw = s.draw := rfl
@[simp] theorem State.setMatched_buf (b : Bool) : (s.setMatched b).buf = s.buf := rfl
@[simp] theorem State.setMatched_src (b : Bool) : (s.setMatched b).src = s.src := rfl
@[simp] theorem State.setMatched_dst (b : Bool) : (s.setMatched b).dst = s.dst := rfl
@[simp] theorem State.setMatched_len (b : Bool) : (s.setMatched b).len = s.len := rfl
@[simp] theorem State.setMatched_keyAddr (b : Bool) : (s.setMatched b).keyAddr = s.keyAddr := rfl
@[simp] theorem State.setMatched_keyLen (b : Bool) : (s.setMatched b).keyLen = s.keyLen := rfl
@[simp] theorem State.setMatched_crc16 (b : Bool) : (s.setMatched b).crc16 = s.crc16 := rfl
@[simp] theorem State.setMatched_crc32 (b : Bool) : (s.setMatched b).crc32 = s.crc32 := rfl
@[simp] theorem State.setMatched_rxKey (b : Bool) : (s.setMatched b).rxKey = s.rxKey := rfl
@[simp] theorem State.setMatched_sbox (b : Bool) : (s.setMatched b).sbox = s.sbox := rfl
@[simp] theorem State.setMatched_scI (b : Bool) : (s.setMatched b).scI = s.scI := rfl
@[simp] theorem State.setMatched_scJ (b : Bool) : (s.setMatched b).scJ = s.scJ := rfl
@[simp] theorem State.setMatched_keyed (b : Bool) : (s.setMatched b).keyed = s.keyed := rfl
@[simp] theorem State.setMatched_err (b : Bool) : (s.setMatched b).err = s.err := rfl
@[simp] theorem State.setMatched_errCode (b : Bool) : (s.setMatched b).errCode = s.errCode := rfl
@[simp] theorem State.setMatched_errOp (b : Bool) : (s.setMatched b).errOp = s.errOp := rfl
@[simp] theorem State.setMatched_matched (b : Bool) : (s.setMatched b).matched = b := rfl
@[simp] theorem State.setMatched_pending (b : Bool) : (s.setMatched b).pending = s.pending := rfl
@[simp] theorem State.setMatched_readData (b : Bool) : (s.setMatched b).readData = s.readData := rfl

@[simp] theorem State.setPending_bufSize (l : List BusEvent) : (s.setPending l).bufSize = s.bufSize := rfl
@[simp] theorem State.setPending_draw (l : List BusEvent) : (s.setPending l).draw = s.draw := rfl
@[simp] theorem State.setPending_buf (l : List BusEvent) : (s.setPending l).buf = s.buf := rfl
@[simp] theorem State.setPending_src (l : List BusEvent) : (s.setPending l).src = s.src := rfl
@[simp] theorem State.setPending_dst (l : List BusEvent) : (s.setPending l).dst = s.dst := rfl
@[simp] theorem State.setPending_len (l : List BusEvent) : (s.setPending l).len = s.len := rfl
@[simp] theorem State.setPending_keyAddr (l : List BusEvent) : (s.setPending l).keyAddr = s.keyAddr := rfl
@[simp] theorem State.setPending_keyLen (l : List BusEvent) : (s.setPending l).keyLen = s.keyLen := rfl
@[simp] theorem State.setPending_crc16 (l : List BusEvent) : (s.setPending l).crc16 = s.crc16 := rfl
@[simp] theorem State.setPending_crc32 (l : List BusEvent) : (s.setPending l).crc32 = s.crc32 := rfl
@[simp] theorem State.setPending_rxKey (l : List BusEvent) : (s.setPending l).rxKey = s.rxKey := rfl
@[simp] theorem State.setPending_sbox (l : List BusEvent) : (s.setPending l).sbox = s.sbox := rfl
@[simp] theorem State.setPending_scI (l : List BusEvent) : (s.setPending l).scI = s.scI := rfl
@[simp] theorem State.setPending_scJ (l : List BusEvent) : (s.setPending l).scJ = s.scJ := rfl
@[simp] theorem State.setPending_keyed (l : List BusEvent) : (s.setPending l).keyed = s.keyed := rfl
@[simp] theorem State.setPending_err (l : List BusEvent) : (s.setPending l).err = s.err := rfl
@[simp] theorem State.setPending_errCode (l : List BusEvent) : (s.setPending l).errCode = s.errCode := rfl
@[simp] theorem State.setPending_errOp (l : List BusEvent) : (s.setPending l).errOp = s.errOp := rfl
@[simp] theorem State.setPending_matched (l : List BusEvent) : (s.setPending l).matched = s.matched := rfl
@[simp] theorem State.setPending_pending (l : List BusEvent) : (s.setPending l).pending = l := rfl
@[simp] theorem State.setPending_readData (l : List BusEvent) : (s.setPending l).readData = s.readData := rfl

@[simp] theorem State.setReadData_bufSize (l : List Word) : (s.setReadData l).bufSize = s.bufSize := rfl
@[simp] theorem State.setReadData_draw (l : List Word) : (s.setReadData l).draw = s.draw := rfl
@[simp] theorem State.setReadData_buf (l : List Word) : (s.setReadData l).buf = s.buf := rfl
@[simp] theorem State.setReadData_src (l : List Word) : (s.setReadData l).src = s.src := rfl
@[simp] theorem State.setReadData_dst (l : List Word) : (s.setReadData l).dst = s.dst := rfl
@[simp] theorem State.setReadData_len (l : List Word) : (s.setReadData l).len = s.len := rfl
@[simp] theorem State.setReadData_keyAddr (l : List Word) : (s.setReadData l).keyAddr = s.keyAddr := rfl
@[simp] theorem State.setReadData_keyLen (l : List Word) : (s.setReadData l).keyLen = s.keyLen := rfl
@[simp] theorem State.setReadData_crc16 (l : List Word) : (s.setReadData l).crc16 = s.crc16 := rfl
@[simp] theorem State.setReadData_crc32 (l : List Word) : (s.setReadData l).crc32 = s.crc32 := rfl
@[simp] theorem State.setReadData_rxKey (l : List Word) : (s.setReadData l).rxKey = s.rxKey := rfl
@[simp] theorem State.setReadData_sbox (l : List Word) : (s.setReadData l).sbox = s.sbox := rfl
@[simp] theorem State.setReadData_scI (l : List Word) : (s.setReadData l).scI = s.scI := rfl
@[simp] theorem State.setReadData_scJ (l : List Word) : (s.setReadData l).scJ = s.scJ := rfl
@[simp] theorem State.setReadData_keyed (l : List Word) : (s.setReadData l).keyed = s.keyed := rfl
@[simp] theorem State.setReadData_err (l : List Word) : (s.setReadData l).err = s.err := rfl
@[simp] theorem State.setReadData_errCode (l : List Word) : (s.setReadData l).errCode = s.errCode := rfl
@[simp] theorem State.setReadData_errOp (l : List Word) : (s.setReadData l).errOp = s.errOp := rfl
@[simp] theorem State.setReadData_matched (l : List Word) : (s.setReadData l).matched = s.matched := rfl
@[simp] theorem State.setReadData_pending (l : List Word) : (s.setReadData l).pending = s.pending := rfl
@[simp] theorem State.setReadData_readData (l : List Word) : (s.setReadData l).readData = l := rfl

end Sys2Proof.Machine
end

