-- ==== Sys2Proof/Laws/Ops.lean ====
section
/-! SUPPORT. What each shared operation can do, said once: recording an error, clearing it, running a command behind
its checks, the operands' checks, and the power-on reset. -/

namespace Sys2Proof.Machine

/-! ### Errors -/

/-- `raiseError` while ERR is 0. -/
theorem raiseError_first {s : State} (code : ErrorCode) (op : Byte) (h : s.err = false) :
    raiseError code op s = { s with err := true, errCode := code, errOp := op } := by
  simp [raiseError, h, State.setErr, State.setErrRecord]

/-- `raiseError` while ERR is 1 changes nothing. -/
theorem raiseError_again {s : State} (code : ErrorCode) (op : Byte) (h : s.err = true) :
    raiseError code op s = s := by
  simp [raiseError, h, State.setErr]
  rw [← h]

/-- `raiseError` in one equation: nothing changes but the error record. -/
theorem raiseError_eq (code : ErrorCode) (op : Byte) (s : State) :
    raiseError code op s = { s with err := true, errCode := if s.err then s.errCode else code,
                                    errOp := if s.err then s.errOp else op } := by
  cases h : s.err
  · rw [raiseError_first code op h]; simp
  · rw [raiseError_again code op h]; simp [← h]

/-- `clearError` in one equation. -/
theorem clearError_eq (s : State) :
    clearError s = { s with err := false, errCode := .none, errOp := 0, matched := false } := rfl

/-- `powerOnReset` in one equation. -/
theorem powerOnReset_eq (s : State) :
    powerOnReset s = State.powerOn s.bufSize (s.draw + 1) s.pending s.readData := rfl

/-! ### A command behind its checks -/

@[simp] theorem firstError_nil : firstError [] = none := rfl

@[simp] theorem firstError_cons (fails : Bool) (code : ErrorCode) (rest : List (Bool × ErrorCode)) :
    firstError ((fails, code) :: rest) = if fails then some code else firstError rest := rfl

/-- A command one of whose checks fails. -/
theorem runCommand_error {i : Instr} {checks : List (Bool × ErrorCode)} {effect : State → State} {s : State}
    {code : ErrorCode} (h : firstError checks = some code) :
    runCommand i checks effect s = .next (raiseError code i.opcode s) := by
  simp [runCommand, h]

/-- A command none of whose checks fails. -/
theorem runCommand_ok {i : Instr} {checks : List (Bool × ErrorCode)} {effect : State → State} {s : State}
    (h : firstError checks = none) : runCommand i checks effect s = .next (effect s) := by
  simp [runCommand, h]

/-- All that a command can do: record the error of the first check that fails, or have its effect. -/
theorem runCommand_cases {i : Instr} {checks : List (Bool × ErrorCode)} {effect : State → State} {s t : State}
    (h : runCommand i checks effect s = .next t) :
    (∃ code, firstError checks = some code ∧ t = raiseError code i.opcode s) ∨
      (firstError checks = none ∧ t = effect s) := by
  cases hc : firstError checks with
  | none => rw [runCommand_ok hc] at h; exact .inr ⟨rfl, by injection h with h; exact h.symm⟩
  | some code => rw [runCommand_error hc] at h; exact .inl ⟨code, rfl, by injection h with h; exact h.symm⟩

/-! ### Operands -/

theorem State.outOfRange_iff (s : State) (a n : Nat) : s.outOfRange a n = true ↔ s.bufSize < a + n := by
  simp [State.outOfRange]

theorem State.inRange_iff (s : State) (a n : Nat) : s.outOfRange a n = false ↔ a + n ≤ s.bufSize := by
  simp [State.outOfRange]

theorem State.badKeyLength_iff (s : State) :
    s.badKeyLength = true ↔ s.keyLength = 0 ∨ 256 < s.keyLength := by
  simp [State.badKeyLength]

theorem State.badLength_iff (s : State) : s.badLength = true ↔ s.length % 4 ≠ 0 := by
  simp [State.badLength]

/-! ### S, I and J together -/

@[simp] theorem State.setKeystream_eq (s : State) (c : Keystream) :
    s.setKeystream c = { s with sbox := c.sbox, scI := c.i, scJ := c.j } := rfl

@[simp] theorem State.keystream_sbox (s : State) : s.keystream.sbox = s.sbox := rfl
@[simp] theorem State.keystream_i (s : State) : s.keystream.i = s.scI := rfl
@[simp] theorem State.keystream_j (s : State) : s.keystream.j = s.scJ := rfl

end Sys2Proof.Machine
end

