-- ==== Sys2Proof/Laws/Bus.lean ====
section
/-! SUPPORT. What the bus can do, said once: a step, the issue of a command, a read and a write. -/

namespace Sys2Proof.Machine

/-- A step with nothing pending. -/
theorem step_idle {s : State} (h : s.pending = []) : step s = .next s := by
  simp [step, serveNext, h]

/-- A step with an event pending. -/
theorem step_serves {s : State} {e : BusEvent} {rest : List BusEvent} (h : s.pending = e :: rest) :
    step s = serve e (s.setPending rest) := by
  simp [step, serveNext, h]

/-- All that a step can do. -/
theorem step_cases {s t : State} (h : step s = .next t) :
    (s.pending = [] ∧ t = s) ∨ ∃ e rest, s.pending = e :: rest ∧ serve e (s.setPending rest) = .next t := by
  cases hp : s.pending with
  | nil => rw [step_idle hp] at h; injection h with h; exact .inl ⟨rfl, h.symm⟩
  | cons e rest => rw [step_serves hp] at h; exact .inr ⟨e, rest, rfl, h⟩

/-- A CMD write is admitted whatever BUF_SIZE is, and issues its command. -/
theorem serve_commandWrite (v : Word) (s : State) : serve (commandWrite v) s = issueCommand v s := by
  simp [commandWrite, serve, serveWrite, refusalOf, writeEffect, regionOf, Width.bytes, Config.bufBase, regAt]

theorem issueCommand_legal {v : Word} {i : Instr} (s : State) (h : decode v = .ok i) :
    issueCommand v s = exec i s := by
  simp [issueCommand, h]

theorem issueCommand_illegal {v : Word} {e : DecodeError} (s : State) (h : decode v = .error e) :
    issueCommand v s = .next (raiseError .illegalCmd (opcodeField v) s) := by
  simp [issueCommand, h]

/-- All that a read can do. -/
theorem serveRead_cases {w : Width} {off : Nat} {s t : State} (h : serveRead w off s = .next t) :
    refusalOf s.bufSize w off = none ∧ t = { s with readData := s.readData ++ [readValue w off s] } := by
  simp only [serveRead] at h
  split at h
  · cases h
  · next hr => injection h with h; exact ⟨hr, h.symm⟩

/-- All that a write can do: issue a command, store a register's field, write BUF, or nothing. -/
theorem serveWrite_cases {w : Width} {off : Nat} {v : Word} {s t : State} (h : serveWrite w off v s = .next t) :
    refusalOf s.bufSize w off = none ∧
      ((regionOf s.bufSize off = .registers ∧ regAt off = .cmd ∧ issueCommand v s = .next t) ∨
        (regionOf s.bufSize off = .registers ∧ regAt off ≠ .cmd ∧ t = writeRegister (regAt off) v s) ∨
        (regionOf s.bufSize off = .buffer ∧ t = s.store (off - Config.bufBase) w.bytes v) ∨
        (regionOf s.bufSize off = .unmapped ∧ t = s)) := by
  simp only [serveWrite] at h
  split at h
  · cases h
  · next hr =>
    refine ⟨hr, ?_⟩
    simp only [writeEffect] at h
    split at h
    · next hreg =>
      split at h
      · next hc => exact .inl ⟨hreg, hc, h⟩
      · next hc => injection h with h; exact .inr (.inl ⟨hreg, hc, h.symm⟩)
    · next hreg => injection h with h; exact .inr (.inr (.inl ⟨hreg, h.symm⟩))
    · next hreg => injection h with h; exact .inr (.inr (.inr ⟨hreg, h.symm⟩))

/-- The three regions, by offset. -/
theorem regionOf_eq_registers {bufSize off : Nat} : regionOf bufSize off = .registers ↔ off < 0x1000 := by
  simp only [regionOf, Config.bufBase]
  split
  · simp [*]
  · split <;> simp [*]

theorem regionOf_eq_buffer {bufSize off : Nat} :
    regionOf bufSize off = .buffer ↔ 0x1000 ≤ off ∧ off < 0x1000 + bufSize := by
  simp only [regionOf, Config.bufBase]
  split
  · simp; omega
  · split
    · simp; omega
    · simp; omega

theorem regionOf_eq_unmapped {bufSize off : Nat} :
    regionOf bufSize off = .unmapped ↔ 0x1000 + bufSize ≤ off := by
  simp only [regionOf, Config.bufBase]
  split
  · simp; omega
  · split
    · simp; omega
    · simp; omega

/-- Which offset a named register, or CMD, is at: its own, and no other. -/
theorem regAt_eq_iff {off : Nat} {r : Reg} (h : r.named = true ∨ r = .cmd) :
    regAt off = r ↔ off = r.offset.toNat := by
  constructor
  · intro e
    unfold regAt at e
    split at e
    case h_13 => split at e <;> subst e <;> (rcases h with h | h <;> cases h)
    all_goals subst e; rfl
  · rintro rfl
    rcases h with h | rfl
    · cases r <;> first | rfl | cases h
    · rfl

/-- The register at the offset of a named register is that register. -/
theorem regAt_offset {r : Reg} (h : r.named = true) : regAt r.offset.toNat = r :=
  (regAt_eq_iff (.inl h)).2 rfl

/-- The offsets of the SBOX window. -/
theorem regAt_sbox {off : Nat} (h : 0x400 ≤ off) (h' : off ≤ 0x4FC) :
    regAt off = .sboxWord (BitVec.ofNat 6 ((off - 0x400) / 4)) := by
  unfold regAt
  split <;> first | omega | skip
  rw [if_pos ⟨h, h'⟩]

/-- The offsets that name no register. -/
theorem regAt_reserved {off : Nat} (h : 0x02C < off) (h' : off < 0x400 ∨ 0x4FC < off) : regAt off = .reserved := by
  unfold regAt
  split <;> first | omega | skip
  rw [if_neg (by omega)]

/-- What a register write never touches: all but the eight RW registers. -/
theorem writeRegister_frame (r : Reg) (v : Word) (s : State) :
    writeRegister r v s = { s with
      src := (writeRegister r v s).src, dst := (writeRegister r v s).dst, len := (writeRegister r v s).len,
      keyAddr := (writeRegister r v s).keyAddr, keyLen := (writeRegister r v s).keyLen,
      crc16 := (writeRegister r v s).crc16, crc32 := (writeRegister r v s).crc32,
      rxKey := (writeRegister r v s).rxKey } := by
  cases r <;> rfl

/-- A host address in the aperture of a block, decoded (20_memory.md R60). -/
theorem apertureOffset_add (base : Nat) (off : Offset) : apertureOffset base (base + off.toNat) = some off := by
  have h : off.toNat < Config.apertureSize := off.isLt
  simp [apertureOffset, h]

end Sys2Proof.Machine
end

