-- ==== Sys2Proof/Laws/Table.lean ====
section
/-! SUPPORT. The laws of the table S: a read after a write, the swap, and that swaps keep a permutation. -/

namespace Sys2Proof.Machine

theorem SBox.get_put (t : SBox) (k x v : Byte) : (t.put k v).get x = if x = k then v else t.get x := by
  simp only [SBox.get, SBox.put, Vector.getElem_set]
  by_cases h : x = k
  · subst h; simp
  · have : ¬ k.toNat = x.toNat := fun e => h (BitVec.eq_of_toNat_eq e.symm)
    simp [h, this]

/-- `swap`: what every index reads afterwards. -/
theorem SBox.get_swap (t : SBox) (a b x : Byte) :
    (t.swap a b).get x = if x = b then t.get a else if x = a then t.get b else t.get x := by
  simp only [SBox.swap, SBox.get_put]

@[simp] theorem SBox.get_identity (k : Byte) : SBox.identity.get k = k := by
  simp [SBox.get, SBox.identity]

/-- Two tables with equal entries are equal. -/
theorem SBox.ext {t u : SBox} (h : ∀ k : Byte, t.get k = u.get k) : t = u := by
  apply Vector.ext
  intro i hi
  have := h (BitVec.ofNat 8 i)
  simpa [SBox.get, Nat.mod_eq_of_lt hi] using this

theorem SBox.identity_isPermutation : SBox.identity.IsPermutation := by
  intro a b h
  simpa using h

/-- A swap keeps a permutation (10_state.md R38). -/
theorem SBox.swap_isPermutation {t : SBox} (a b : Byte) (h : t.IsPermutation) : (t.swap a b).IsPermutation := by
  intro x y hxy
  rw [SBox.get_swap, SBox.get_swap] at hxy
  split at hxy <;> split at hxy <;> (try split at hxy) <;> (try split at hxy) <;>
    have := h _ _ hxy <;> simp_all

end Sys2Proof.Machine
end

