-- ==== Sys2Proof/Laws/Engines.lean ====
section
/-! SUPPORT. What the loops of the engines do: the checksum folds, the key schedule, and the two ciphers' loops
over BUF, byte by byte or word by word. -/

namespace Sys2Proof.Machine

/-! ### Effects, in one equation each -/

/-- `softReset` in one equation. -/
theorem softReset_eq (s : State) : softReset s = { s with
    src := 0, dst := 0, len := 0, keyAddr := 0, keyLen := 0, crc16 := 0xFFFF, crc32 := 0xFFFFFFFF, rxKey := 0,
    scI := 0, scJ := 0, keyed := false, err := false, errCode := .none, errOp := 0, matched := false } := by
  simp only [softReset, clearError_eq, State.setSrc, State.setDst, State.setLen, State.setKeyAddr,
    State.setKeyLen, State.setCrc16, State.setCrc32, State.setRxKey, State.setIndices, State.setKeyed]

/-- `scheduleKey` in one equation. -/
theorem scheduleKey_eq (s : State) :
    scheduleKey s = { s with sbox := ksa s.keyBytes, scI := 0, scJ := 0, keyed := true } := by
  simp only [scheduleKey, State.setSbox, State.setIndices, State.setKeyed]

/-! ### Checksums -/

theorem crc16Seq_nil (c : Half) : crc16Seq c [] = c := rfl
theorem crc16Seq_append (c : Half) (a b : List Byte) : crc16Seq c (a ++ b) = crc16Seq (crc16Seq c a) b := by
  simp [crc16Seq]
theorem crc32Seq_nil (c : Word) : crc32Seq c [] = c := rfl
theorem crc32Seq_append (c : Word) (a b : List Byte) : crc32Seq c (a ++ b) = crc32Seq (crc32Seq c a) b := by
  simp [crc32Seq]

/-! ### The keystream -/

/-- One keystream step, by its fields. -/
theorem prga_fst (c : Keystream) :
    (prga c).1 =
      { sbox := c.sbox.swap (c.i + 1) (c.j + c.sbox.get (c.i + 1)), i := c.i + 1,
        j := c.j + c.sbox.get (c.i + 1) } := rfl

@[simp] theorem keystreamAfter_zero (c : Keystream) : keystreamAfter 0 c = c := rfl

theorem keystreamAfter_succ (n : Nat) (c : Keystream) :
    keystreamAfter (n + 1) c = keystreamAfter n (prga c).1 := rfl

theorem keystreamByte_succ (n : Nat) (c : Keystream) :
    keystreamByte (n + 1) c = keystreamByte n (prga c).1 := rfl

theorem keystreamAfter_add (n m : Nat) (c : Keystream) :
    keystreamAfter (n + m) c = keystreamAfter m (keystreamAfter n c) := by
  induction n generalizing c with
  | zero => simp
  | succ n ih => rw [Nat.succ_add, keystreamAfter_succ, ih, keystreamAfter_succ]

/-! ### The loop of SC.CRYPT -/

/-- The keystream's state after the loop. -/
theorem scLoop_snd (draw n src dst : Nat) (m : Memory) (c : Keystream) :
    (scLoop draw n src dst m c).2 = keystreamAfter n c := by
  induction n generalizing src dst m c with
  | zero => rfl
  | succ n ih => simp only [scLoop, keystreamAfter_succ]; exact ih ..

/-- The loop in two parts. -/
theorem scLoop_add (draw n k src dst : Nat) (m : Memory) (c : Keystream) :
    scLoop draw (n + k) src dst m c =
      scLoop draw k (src + n) (dst + n) (scLoop draw n src dst m c).1 (scLoop draw n src dst m c).2 := by
  induction n generalizing src dst m c with
  | zero => simp [scLoop]
  | succ n ih =>
    rw [Nat.succ_add]
    simp only [scLoop]
    rw [ih]
    simp only [Nat.add_assoc, Nat.add_comm 1]

/-- The loop writes only its destination range. -/
theorem scLoop_outside (draw n src dst : Nat) (m : Memory) (c : Keystream) {x : Nat}
    (h : ¬(dst ≤ x ∧ x < dst + n)) : (scLoop draw n src dst m c).1.read draw x = m.read draw x := by
  induction n generalizing src dst m c with
  | zero => rfl
  | succ n ih =>
    simp only [scLoop]
    rw [ih _ _ _ _ (by omega), Memory.read_write_other _ _ _ (by omega)]

/-- Byte k that the loop writes: the input byte XOR the k-th keystream byte. The input byte is one the loop itself
wrote where it lies in the part of the destination written before. -/
theorem scLoop_byte (draw n src dst : Nat) (m : Memory) (c : Keystream) {k : Nat} (hk : k < n) :
    (scLoop draw n src dst m c).1.read draw (dst + k) =
      (if src < dst ∧ dst ≤ src + k then (scLoop draw n src dst m c).1.read draw (src + k)
       else m.read draw (src + k)) ^^^ keystreamByte k c := by
  induction n generalizing src dst m c k with
  | zero => omega
  | succ n ih =>
    simp only [scLoop]
    set m' := m.write dst (m.read draw src ^^^ (prga c).2) with hm'
    cases k with
    | zero =>
      rw [if_neg (by omega)]
      show (scLoop draw n (src + 1) (dst + 1) m' (prga c).1).1.read draw dst = _
      rw [scLoop_outside _ _ _ _ _ _ (by omega), hm', Memory.read_write_same]
      rfl
    | succ k =>
      have := ih (src + 1) (dst + 1) m' (prga c).1 (k := k) (by omega)
      rw [show dst + 1 + k = dst + (k + 1) by omega, show src + 1 + k = src + (k + 1) by omega] at this
      rw [this, keystreamByte_succ]
      congr 1
      by_cases h1 : src + 1 < dst + 1 ∧ dst + 1 ≤ src + (k + 1)
      · rw [if_pos h1, if_pos (by omega)]
      · rw [if_neg h1, hm']
        by_cases h2 : src < dst ∧ dst ≤ src + (k + 1)
        · rw [if_pos h2, show src + (k + 1) = dst by omega, scLoop_outside _ _ _ _ _ _ (by omega)]
        · rw [if_neg h2, Memory.read_write_other _ _ _ (by omega)]

/-- `scCryptRange` in one equation. -/
theorem scCryptRange_eq (s : State) : scCryptRange s =
    { s with
      buf := (scLoop s.draw s.length s.srcAddr s.dstAddr s.buf s.keystream).1
      sbox := (keystreamAfter s.length s.keystream).sbox
      scI := (keystreamAfter s.length s.keystream).i
      scJ := (keystreamAfter s.length s.keystream).j } := by
  unfold scCryptRange
  simp only [← scLoop_snd s.draw s.length s.srcAddr s.dstAddr s.buf]
  rfl

theorem scLoop_wf (draw n src dst : Nat) {m : Memory} (c : Keystream) (h : m.wf = true) :
    (scLoop draw n src dst m c).1.wf = true := by
  induction n generalizing src dst m c with
  | zero => exact h
  | succ n ih => exact ih _ _ _ (Memory.wf_write _ _ h)

theorem scLoop_within (draw n src dst : Nat) {m : Memory} {size : Nat} (c : Keystream)
    (h : m.within size = true) (hd : dst + n ≤ size) : (scLoop draw n src dst m c).1.within size = true := by
  induction n generalizing src dst m c with
  | zero => exact h
  | succ n ih => exact ih _ _ _ (Memory.within_write _ h (by omega)) (by omega)

/-! ### The loop of RX.CRYPT -/

/-- Rotating left by n, bit by bit. -/
theorem rotateLeft_bit (v : Word) (n : Nat) {i : Nat} (hi : i < 32) :
    (v.rotateLeft n).getLsbD i = v.getLsbD ((i + 32 - n % 32) % 32) := by
  rw [BitVec.getLsbD_rotateLeft]
  have hm : n % 32 < 32 := Nat.mod_lt _ (by omega)
  by_cases h : i < n % 32
  · rw [decide_eq_true h, cond_true]; congr 1; omega
  · rw [decide_eq_false h, cond_false, decide_eq_true hi, Bool.true_and]; congr 1; omega

/-- rotl32(v, 1), n times, is the rotation left by n. -/
theorem rotl1_iterate (n : Nat) (v : Word) : rotl1^[n] v = v.rotateLeft n := by
  have step : ∀ n, (v.rotateLeft n).rotateLeft 1 = v.rotateLeft (n + 1) := by
    intro n
    apply BitVec.eq_of_getLsbD_eq
    intro i hi
    rw [rotateLeft_bit _ _ hi, rotateLeft_bit _ _ (Nat.mod_lt _ (by omega)), rotateLeft_bit _ _ hi]
    congr 1; omega
  induction n with
  | zero =>
    apply BitVec.eq_of_getLsbD_eq
    intro i hi
    rw [rotateLeft_bit _ _ hi]
    show v.getLsbD i = _
    congr 1; omega
  | succ n ih =>
    rw [Function.iterate_succ_apply', ih, ← step n]
    simp [rotl1, BitVec.rotateLeft_def]

/-- The key after the loop. -/
theorem rxLoop_snd (draw n src dst : Nat) (m : Memory) (key : Word) :
    (rxLoop draw n src dst m key).2 = rotl1^[n] key := by
  induction n generalizing src dst m key with
  | zero => rfl
  | succ n ih => simp only [rxLoop, rxWord, Function.iterate_succ_apply]; exact ih ..

/-- The loop in two parts. -/
theorem rxLoop_add (draw n k src dst : Nat) (m : Memory) (key : Word) :
    rxLoop draw (n + k) src dst m key =
      rxLoop draw k (src + 4 * n) (dst + 4 * n) (rxLoop draw n src dst m key).1
        (rxLoop draw n src dst m key).2 := by
  induction n generalizing src dst m key with
  | zero => simp [rxLoop]
  | succ n ih =>
    rw [Nat.succ_add]
    simp only [rxLoop]
    rw [ih]
    have h : ∀ a, a + 4 + 4 * n = a + 4 * (n + 1) := by omega
    rw [h, h]

/-- The loop writes only its destination range. -/
theorem rxLoop_outside (draw n src dst : Nat) (m : Memory) (key : Word) {x : Nat}
    (h : ¬(dst ≤ x ∧ x < dst + 4 * n)) : (rxLoop draw n src dst m key).1.read draw x = m.read draw x := by
  induction n generalizing src dst m key with
  | zero => rfl
  | succ n ih =>
    simp only [rxLoop]
    rw [ih _ _ _ _ (by omega), Memory.read_writeLE, if_neg (by omega)]

/-- Byte b of word j that the loop writes: the input byte XOR byte b of the key rotated j times. The input byte is
one the loop itself wrote where it lies in the words written before. -/
theorem rxLoop_byte (draw n src dst : Nat) (m : Memory) (key : Word) {j b : Nat} (hj : j < n) (hb : b < 4) :
    (rxLoop draw n src dst m key).1.read draw (dst + 4 * j + b) =
      (if dst ≤ src + 4 * j + b ∧ src + 4 * j + b < dst + 4 * j
       then (rxLoop draw n src dst m key).1.read draw (src + 4 * j + b)
       else m.read draw (src + 4 * j + b)) ^^^ (rotl1^[j] key).extractLsb' (8 * b) 8 := by
  induction n generalizing src dst m key j with
  | zero => omega
  | succ n ih =>
    simp only [rxLoop, rxWord]
    set m' := m.writeLE dst 4 (m.readLE draw src 4 ^^^ key) with hm'
    cases j with
    | zero =>
      rw [if_neg (by omega)]
      show (rxLoop draw n (src + 4) (dst + 4) m' _).1.read draw (dst + b) = _
      have hx : ∀ v w : Word, (v ^^^ w).extractLsb' (8 * b) 8 =
          v.extractLsb' (8 * b) 8 ^^^ w.extractLsb' (8 * b) 8 := by
        intro v w
        apply BitVec.eq_of_getLsbD_eq
        intro i hi
        simp [hi]
      rw [rxLoop_outside _ _ _ _ _ _ (by omega), hm', Memory.read_writeLE, if_pos (by omega),
        show dst + b - dst = b by omega, hx, Memory.extract_readLE _ _ _ _ _ (by omega) hb]
      rfl
    | succ j =>
      have := ih (src + 4) (dst + 4) m' (rotl1 key) (j := j) (by omega)
      rw [show dst + 4 + 4 * j = dst + 4 * (j + 1) by omega,
        show src + 4 + 4 * j = src + 4 * (j + 1) by omega] at this
      rw [this, Function.iterate_succ_apply]
      congr 1
      by_cases h1 : dst + 4 ≤ src + 4 * (j + 1) + b ∧ src + 4 * (j + 1) + b < dst + 4 * (j + 1)
      · rw [if_pos h1, if_pos (by omega)]
      · rw [if_neg h1]
        by_cases h2 : dst ≤ src + 4 * (j + 1) + b ∧ src + 4 * (j + 1) + b < dst + 4 * (j + 1)
        · rw [if_pos h2, rxLoop_outside _ _ _ _ _ _ (by omega)]
        · rw [if_neg h2, hm', Memory.read_writeLE, if_neg (by omega)]

/-- `rxCryptRange` in one equation. -/
theorem rxCryptRange_eq (s : State) : rxCryptRange s =
    { s with
      buf := (rxLoop s.draw (s.length / 4) s.srcAddr s.dstAddr s.buf s.rxKey).1
      rxKey := s.rxKey.rotateLeft (s.length / 4) } := by
  unfold rxCryptRange
  simp only [← rotl1_iterate, ← rxLoop_snd s.draw (s.length / 4) s.srcAddr s.dstAddr s.buf]
  rfl

theorem rxLoop_wf (draw n src dst : Nat) {m : Memory} (key : Word) (h : m.wf = true) :
    (rxLoop draw n src dst m key).1.wf = true := by
  induction n generalizing src dst m key with
  | zero => exact h
  | succ n ih => exact ih _ _ _ (Memory.wf_writeLE _ _ _ h)

theorem rxLoop_within (draw n src dst : Nat) {m : Memory} {size : Nat} (key : Word)
    (h : m.within size = true) (hd : dst + 4 * n ≤ size) :
    (rxLoop draw n src dst m key).1.within size = true := by
  induction n generalizing src dst m key with
  | zero => exact h
  | succ n ih => exact ih _ _ _ (Memory.within_writeLE _ _ _ h (by omega)) (by omega)

end Sys2Proof.Machine
end

