-- ==== Sys2Proof/Laws/PerInstr.lean ====
section
/-! SUPPORT. The per-instruction family EncodesItsRow: the bits a command encodes to are the bits of its opcode-table
row, and the decoder reads the command back from them. -/

namespace Sys2Proof.Laws.EncodesItsRow

/-- A command is well formed, its word has 24 reserved zero bits above its OPC, and the decoder reads it back. -/
def Statement (i : Instr) : Prop :=
  i.wellFormed = true ∧ reservedField (encode i) = 0 ∧ opcodeField (encode i) = i.opcode ∧
    decodeTableWord 32 (encode i).toNat = some i

theorem nop : Statement .nop := by unfold Statement; decide
theorem clrstat : Statement .clrstat := by unfold Statement; decide
theorem sreset : Statement .sreset := by unfold Statement; decide
theorem crc16Init : Statement .crc16Init := by unfold Statement; decide
theorem crc16Update : Statement .crc16Update := by unfold Statement; decide
theorem crc16Store : Statement .crc16Store := by unfold Statement; decide
theorem crc16Check : Statement .crc16Check := by unfold Statement; decide
theorem crc32Init : Statement .crc32Init := by unfold Statement; decide
theorem crc32Update : Statement .crc32Update := by unfold Statement; decide
theorem crc32Store : Statement .crc32Store := by unfold Statement; decide
theorem crc32Check : Statement .crc32Check := by unfold Statement; decide
theorem scSched : Statement .scSched := by unfold Statement; decide
theorem scCrypt : Statement .scCrypt := by unfold Statement; decide
theorem rxLoadkey : Statement .rxLoadkey := by unfold Statement; decide
theorem rxCrypt : Statement .rxCrypt := by unfold Statement; decide

end Sys2Proof.Laws.EncodesItsRow
end

