-- ==== Sys2Proof/Machine/Assembler.lean ====
section
/-! DEFINITION. The assembler of a host's program (30_encoding.md R97, R98) and of a transaction list (R101), total on
any text: a line that is none is refused. Log entry 18. -/

namespace Sys2Proof.Machine

/-! ### Tokens and numbers -/

/-- The token collected so far (its characters in reverse), in front of the tokens after it. -/
def flushToken (cur : List Char) (rest : List String) : List String :=
  if cur.isEmpty then rest else String.ofList cur.reverse :: rest

/-- The tokens of a line: `;` starts a comment, and a comma is a token of its own. -/
def tokensFrom (cur : List Char) : List Char → List String
  | [] => flushToken cur []
  | c :: rest =>
    if c = ';' then flushToken cur []
    else if c = ' ' ∨ c = '\t' then flushToken cur (tokensFrom [] rest)
    else if c = ',' then flushToken cur ("," :: tokensFrom [] rest)
    else tokensFrom (c :: cur) rest

/-- The tokens of a line of text. -/
def tokensOf (line : String) : List String := tokensFrom [] line.toList

/-- The value of a hexadecimal digit, in either case. -/
def digitValue (c : Char) : Option Nat :=
  if '0' ≤ c ∧ c ≤ '9' then some (c.toNat - '0'.toNat)
  else if 'a' ≤ c ∧ c ≤ 'f' then some (c.toNat - 'a'.toNat + 10)
  else if 'A' ≤ c ∧ c ≤ 'F' then some (c.toNat - 'A'.toNat + 10)
  else none

/-- The number that digits write in a base, the first the most significant, after `acc`. -/
def digitsValue (base acc : Nat) : List Char → Option Nat
  | [] => some acc
  | c :: rest =>
    match digitValue c with
    | some d => if d < base then digitsValue base (base * acc + d) rest else none
    | none => none

/-- A number, decimal or `0x` hex (30_encoding.md R97): a token without `0x` is decimal. -/
def numberOf (t : String) : Option Nat :=
  match t.toList with
  | [] => none
  | ['0', 'x'] => none
  | '0' :: 'x' :: digits => digitsValue 16 0 digits
  | digits => digitsValue 10 0 digits

/-- A number that a 32-bit word holds. -/
def wordOf (t : String) : Option Word :=
  match numberOf t with
  | some n => if n < 2 ^ 32 then some (BitVec.ofNat 32 n) else none
  | none => none

/-- Numbers separated by commas. -/
def wordsOf : List String → Option (List Word)
  | [t] => (wordOf t).map fun v => [v]
  | t :: "," :: rest =>
    match wordOf t, wordsOf rest with
    | some v, some vs => some (v :: vs)
    | _, _ => none
  | _ => none

/-- A byte sequence as hex pairs (00_scope.md R8). -/
def hexPairs : List Char → Option (List Byte)
  | [] => some []
  | a :: b :: rest =>
    match digitsValue 16 0 [a, b], hexPairs rest with
    | some v, some vs => some (BitVec.ofNat 8 v :: vs)
    | _, _ => none
  | [_] => none

/-- The bytes of one token of `wb`: a `0x` number below 256, or hex pairs. -/
def bytesOf (t : String) : Option (List Byte) :=
  match t.toList with
  | '0' :: 'x' :: digits =>
    match digits.isEmpty, digitsValue 16 0 digits with
    | false, some v => if v < 256 then some [BitVec.ofNat 8 v] else none
    | _, _ => none
  | pairs => hexPairs pairs

/-- The bytes of all the tokens of `wb`. -/
def allBytesOf : List String → Option (List Byte)
  | [] => some []
  | t :: rest =>
    match bytesOf t, allBytesOf rest with
    | some a, some b => some (a ++ b)
    | _, _ => none

/-! ### Names -/

/-- The command of a mnemonic (30_encoding.md R93), in capitals (R97). -/
def commandOf (t : String) : Option Instr :=
  [.nop, .clrstat, .sreset, .crc16Init, .crc16Update, .crc16Store, .crc16Check, .crc32Init, .crc32Update,
    .crc32Store, .crc32Check, .scSched, .scCrypt, .rxLoadkey, .rxCrypt].find? fun i => mnemonicOf i == t

/-- The register of a name (10_state.md R23). -/
def regOf (t : String) : Option Reg :=
  [.cmd, .status, .src, .dst, .len, .keyAddr, .keyLen, .crc16, .crc32, .crc32Out, .rxKey, .scij].find?
    fun r => Reg.text r == t

/-- The m of `SBOX[m]`. -/
def sboxIndexOf (t : String) : Option Nat :=
  match t.toList with
  | 'S' :: 'B' :: 'O' :: 'X' :: '[' :: rest =>
    match rest.reverse with
    | ']' :: digits => numberOf (String.ofList digits.reverse)
    | _ => none
  | _ => none

/-! ### Lines -/

/-- What one line of a program is. -/
inductive Line where
  /-- Nothing but a comment. -/
  | blank
  /-- A statement, with the value that `rd REG -> expected` expects. -/
  | stmt (s : Stmt) (expected : Option Word)
  /-- A pseudo-instruction. -/
  | pseudo (p : Pseudo)
deriving DecidableEq, Repr

/-- `wr REG, value` and `wr CMD, v` (30_encoding.md R97). -/
def writeStmt (name : String) (v : Word) : Option Stmt :=
  match regOf name with
  | some .cmd => some (.wrCmd v)
  | some r => some (.wr r v)
  | none => none

/-- `rd REG` and `rd SBOX[m]` (30_encoding.md R97). -/
def readStmt (name : String) : Option Stmt :=
  match regOf name, sboxIndexOf name with
  | some r, _ => some (.rd r)
  | none, some m => some (.rdSbox m)
  | none, none => none

/-- The pseudo-instruction of a name and its operands (30_encoding.md R98). -/
def pseudoOf (name : String) (args : List Word) : Option Pseudo :=
  match name, args with
  | "crc16", [src, len] => some (.crc16 src len)
  | "crc16.check", [src, len, dst] => some (.crc16Check src len dst)
  | "crc16.store", [src, len, dst] => some (.crc16Store src len dst)
  | "crc32", [src, len] => some (.crc32 src len)
  | "crc32.check", [src, len, dst] => some (.crc32Check src len dst)
  | "crc32.store", [src, len, dst] => some (.crc32Store src len dst)
  | "sc.key", [keyaddr, keylen] => some (.scKey keyaddr keylen)
  | "sc.crypt", [src, dst, len] => some (.scCrypt src dst len)
  | "sc", [keyaddr, keylen, src, dst, len] => some (.sc keyaddr keylen src dst len)
  | "rx.key", [keyaddr] => some (.rxKey keyaddr)
  | "rx.setkey", [k] => some (.rxSetkey k)
  | "rx.crypt", [src, dst, len] => some (.rxCrypt src dst len)
  | "rx", [keyaddr, src, dst, len] => some (.rx keyaddr src dst len)
  | _, _ => none

/-- A line, from its tokens (30_encoding.md R97, R98). -/
def lineOf (tokens : List String) : Option Line :=
  match tokens with
  | [] => some .blank
  | ["cmd", m] => (commandOf m).map fun i => .stmt (.cmd i) none
  | ["wr", name, ",", v] => (wordOf v).bind fun v => (writeStmt name v).map fun s => .stmt s none
  | ["rd", name] => (readStmt name).map fun s => .stmt s none
  | ["rd", name, "->", v] => (wordOf v).bind fun v => (readStmt name).map fun s => .stmt s (some v)
  | "wb" :: a :: "," :: bytes =>
    (numberOf a).bind fun a => (allBytesOf bytes).map fun b => .stmt (.wb a b) none
  | ["ww", a, ",", v] => (numberOf a).bind fun a => (wordOf v).map fun v => .stmt (.ww a v) none
  | ["rb", a, ",", n] => (numberOf a).bind fun a => (numberOf n).map fun n => .stmt (.rb a n) none
  | ["clr"] => some (.pseudo .clr)
  | name :: args => (wordsOf args).bind fun v => (pseudoOf name v).map .pseudo

/-- The statements of a line, pseudo-instructions expanded (30_encoding.md R98). -/
def Line.stmts : Line → List Stmt
  | .blank => []
  | .stmt s _ => [s]
  | .pseudo p => expand p

/-- The statements of a program, one line at a time (30_encoding.md R97): none where a line is no statement, or is
not well formed for a BUF of `bufSize` bytes. -/
def assemble (bufSize : Nat) : List String → Option (List Stmt)
  | [] => some []
  | line :: rest =>
    match lineOf (tokensOf line), assemble bufSize rest with
    | some l, some p => if l.stmts.all (Stmt.wellFormed bufSize) then some (l.stmts ++ p) else none
    | _, _ => none

/-! ### Transaction lists -/

/-- An offset within the aperture (20_memory.md R62), written as `numberOf` reads a number. -/
def offsetOf (t : String) : Option Offset :=
  match numberOf t with
  | some n => if n < Config.apertureSize then some (BitVec.ofNat 17 n) else none
  | none => none

/-- A line of a transaction list, `W<w> <offset> <value>` or `R<w> <offset>` (30_encoding.md R101). The rule writes the
offset and the value in hex, which is a number with `0x` (00_scope.md R8). What another token means it leaves open.
DESIGN CHOICE, log entry 18: a token without `0x` is read as decimal, as in a program (R97), and a value may have bits
above the width, which the write ignores (20_memory.md R64). -/
def transactionOf (tokens : List String) : Option BusEvent :=
  match tokens with
  | [op, off] =>
    match op, offsetOf off with
    | "R8", some o => some (.read .w8 o)
    | "R16", some o => some (.read .w16 o)
    | "R32", some o => some (.read .w32 o)
    | _, _ => none
  | [op, off, v] =>
    match op, offsetOf off, wordOf v with
    | "W8", some o, some v => some (.write .w8 o v)
    | "W16", some o, some v => some (.write .w16 o v)
    | "W32", some o, some v => some (.write .w32 o v)
    | _, _, _ => none
  | _ => none

end Sys2Proof.Machine
end

