-- ==== Sys2Proof/Tests/Slice0.lean ====
section
/-! SUPPORT. Tests: the well-formedness checks, the decoder on words written out from 30_encoding.md R91 and R93, one
step of each command against the examples of the spec, the bus, and a witness for the hypotheses of every statement. -/

namespace Sys2Proof.Tests

open Sys2Proof Sys2Proof.Machine

/-! ### Helpers -/

/-- The state with bytes written from an address on. -/
def put (a : Nat) : List Byte → State → State
  | [], s => s
  | b :: rest, s => put (a + 1) rest (s.setBuf (s.buf.write a b))

/-- What a command leaves, or none where it answers no next state. -/
def run (i : Instr) (s : State) : Option State :=
  match exec i s with
  | .next t => some t
  | _ => none

/-- What a step leaves, or none. -/
def stepped (s : State) : Option State :=
  match step s with
  | .next t => some t
  | _ => none

/-- The state after reset, with events pending. -/
def arrived (l : List BusEvent) : State := { State.reset with pending := l }

/-- A state that is keyed, with the identity for S. -/
def keyed : State := { State.reset with sbox := SBox.identity, keyed := true }

/-- A state in which an error is recorded. -/
def failed : State := { State.reset with err := true, errCode := .badLen, errOp := 0x41 }

/-! ### Well-formedness (30_encoding.md R97): each check refuses an ill-formed term -/

theorem test_wf_sbox_index : Stmt.wellFormed 4096 (.rdSbox 64) = false ∧ Stmt.wellFormed 4096 (.rdSbox 63) = true := by
  decide
theorem test_wf_word_address :
    Stmt.wellFormed 4096 (.ww 2 0) = false ∧ Stmt.wellFormed 4096 (.ww 4096 0) = false ∧
      Stmt.wellFormed 4096 (.ww 4092 0) = true := by decide
theorem test_wf_bytes_in_buf :
    Stmt.wellFormed 4096 (.wb 4095 [1, 2]) = false ∧ Stmt.wellFormed 4096 (.rb 4095 2) = false ∧
      Stmt.wellFormed 4096 (.rb 4095 1) = true := by decide
theorem test_wf_register_names :
    Stmt.wellFormed 4096 (.wr .reserved 0) = false ∧ Stmt.wellFormed 4096 (.rd (.sboxWord 0)) = false ∧
      Stmt.wellFormed 4096 (.wr .cmd 0) = false ∧ Stmt.wellFormed 4096 (.rd .cmd) = true := by decide

/-! ### Decoding (30_encoding.md R91, R93): words written out bit by bit -/

theorem test_decode_control :
    decode 0b00000000000000000000000000000001 = .ok .nop ∧
    decode 0b00000000000000000000000000000010 = .ok .clrstat ∧
    decode 0b00000000000000000000000000001111 = .ok .sreset := by decide
theorem test_decode_crc16 :
    decode 0b00000000000000000000000000010000 = .ok .crc16Init ∧
    decode 0b00000000000000000000000000010001 = .ok .crc16Update ∧
    decode 0b00000000000000000000000000010010 = .ok .crc16Store ∧
    decode 0b00000000000000000000000000010011 = .ok .crc16Check := by decide
theorem test_decode_crc32 :
    decode 0b00000000000000000000000000100000 = .ok .crc32Init ∧
    decode 0b00000000000000000000000000100001 = .ok .crc32Update ∧
    decode 0b00000000000000000000000000100010 = .ok .crc32Store ∧
    decode 0b00000000000000000000000000100011 = .ok .crc32Check := by decide
theorem test_decode_sc :
    decode 0b00000000000000000000000000110000 = .ok .scSched ∧
    decode 0b00000000000000000000000000110001 = .ok .scCrypt := by decide
theorem test_decode_rx :
    decode 0b00000000000000000000000001000000 = .ok .rxLoadkey ∧
    decode 0b00000000000000000000000001000001 = .ok .rxCrypt := by decide
theorem test_decode_rejects :
    decode 0x00000000 = .error .unknownOpcode ∧ decode 0x00000111 = .error .reservedBits ∧
    decode 0x80000001 = .error .reservedBits ∧ decode 0x00000042 = .error .unknownOpcode := by decide
theorem test_table_rows :
    [0x01, 0x02, 0x0F, 0x10, 0x11, 0x12, 0x13, 0x20, 0x21, 0x22, 0x23, 0x30, 0x31, 0x40, 0x41].map
        (decodeTableWord 32) =
      [some .nop, some .clrstat, some .sreset, some .crc16Init, some .crc16Update, some .crc16Store,
        some .crc16Check, some .crc32Init, some .crc32Update, some .crc32Store, some .crc32Check, some .scSched,
        some .scCrypt, some .rxLoadkey, some .rxCrypt] := by decide

/-- The very next step after `withFetchWord` runs the row's command, as the first one after reset. -/
theorem test_fetch_runs :
    step (State.reset.withFetchWord 32 0x01) = exec .nop State.reset ∧
    step (State.reset.withFetchWord 32 0x02) = exec .clrstat State.reset ∧
    step (State.reset.withFetchWord 32 0x0F) = exec .sreset State.reset ∧
    step (State.reset.withFetchWord 32 0x10) = exec .crc16Init State.reset ∧
    step (State.reset.withFetchWord 32 0x11) = exec .crc16Update State.reset ∧
    step (State.reset.withFetchWord 32 0x12) = exec .crc16Store State.reset ∧
    step (State.reset.withFetchWord 32 0x13) = exec .crc16Check State.reset ∧
    step (State.reset.withFetchWord 32 0x20) = exec .crc32Init State.reset ∧
    step (State.reset.withFetchWord 32 0x21) = exec .crc32Update State.reset ∧
    step (State.reset.withFetchWord 32 0x22) = exec .crc32Store State.reset ∧
    step (State.reset.withFetchWord 32 0x23) = exec .crc32Check State.reset ∧
    step (State.reset.withFetchWord 32 0x30) = exec .scSched State.reset ∧
    step (State.reset.withFetchWord 32 0x31) = exec .scCrypt State.reset ∧
    step (State.reset.withFetchWord 32 0x40) = exec .rxLoadkey State.reset ∧
    step (State.reset.withFetchWord 32 0x41) = exec .rxCrypt State.reset :=
  ⟨rfl, rfl, rfl, rfl, rfl, rfl, rfl, rfl, rfl, rfl, rfl, rfl, rfl, rfl, rfl⟩

/-! ### One step of each command: the examples of the rules -/

/-- 40_control.md R110, example. -/
theorem test_nop : (run .nop { failed with errOp := 0 }).map statusWord = some 0x00000031 := by decide
/-- 40_control.md R111, example. -/
theorem test_clrstat :
    statusWord { failed with matched := true, keyed := true } = 0x00410331 ∧
    (run .clrstat { failed with matched := true, keyed := true }).map statusWord = some 0x00000200 := by decide
/-- 40_control.md R112: BUF is kept. -/
theorem test_sreset :
    (run .sreset (put 7 [0x5A] { failed with crc16 := 1, scI := 9, keyed := true, rxKey := 3 })).map
        (fun t => (statusWord t, t.crc16, t.crc32, readRegister .scij t, t.byte 7, t.rxKey)) =
      some (0, 0xFFFF, 0xFFFFFFFF, 0, 0x5A, 0) := by decide
/-- 41_crc16.md R121, example. -/
theorem test_crc16_init : (run .crc16Init { State.reset with crc16 := 0x80C4 }).map (·.crc16) = some 0xFFFF := by
  decide
/-- 41_crc16.md R122, example. -/
theorem test_crc16_update :
    (run .crc16Update (put 0 [0xAA, 0xBB, 0xCC, 0xDD] { State.reset with len := 4 })).map (·.crc16) =
      some 0x80C4 := by decide +kernel
/-- 41_crc16.md R123, example. -/
theorem test_crc16_store :
    (run .crc16Store { State.reset with crc16 := 0x80C4, dst := 0x10 }).map
      (fun t => (t.byte 0x10, t.byte 0x11)) = some (0xC4, 0x80) := by decide
/-- 41_crc16.md R124, example. -/
theorem test_crc16_check :
    (run .crc16Check (put 0 [0x39, 0x0C] { State.reset with crc16 := 0x0C39 })).map (·.matched) = some true := by
  decide
/-- 95_test_vectors.md ERR-5. -/
theorem test_crc16_check_range :
    (run .crc16Check { State.reset with dst := 0xFFF, matched := true }).map statusWord = some 0x00130021 := by
  decide
/-- 42_crc32.md R141, example. -/
theorem test_crc32_init :
    (run .crc32Init { State.reset with crc32 := 0x918DB501 }).map (fun t => (t.crc32, readRegister .crc32Out t)) =
      some (0xFFFFFFFF, 0) := by decide
/-- 42_crc32.md R142, example: the nine bytes of "123456789". -/
theorem test_crc32_update :
    (run .crc32Update (put 0 [0x31, 0x32, 0x33, 0x34, 0x35, 0x36, 0x37, 0x38, 0x39]
        { State.reset with len := 9 })).map (fun t => (t.crc32, readRegister .crc32Out t)) =
      some (0x340BC6D9, 0xCBF43926) := by decide +kernel
/-- 42_crc32.md R143, example. -/
theorem test_crc32_store :
    (run .crc32Store { State.reset with crc32 := 0x340BC6D9, dst := 0x20 }).map
      (fun t => (t.byte 0x20, t.byte 0x21, t.byte 0x22, t.byte 0x23)) = some (0x26, 0x39, 0xF4, 0xCB) := by decide
/-- 42_crc32.md R144, example. -/
theorem test_crc32_check :
    (run .crc32Check (put 0 [0xFE, 0x4A, 0x72, 0x6E] { State.reset with crc32 := 0x918DB501 })).map (·.matched) =
      some true := by decide
/-- 43_stream_cipher.md R164 and R165, the two examples: the key 11 11, and then four bytes. -/
theorem test_sc_sched_and_crypt :
    ((run .scSched (put 0 [0xAA, 0xBB, 0xCC, 0xDD] (put 0x100 [0x11, 0x11]
        { State.reset with keyAddr := 0x100, keyLen := 2, dst := 0x800, len := 4 }))).bind (run .scCrypt)).map
        (fun t => (t.bytes 0x800 4, t.scI, t.scJ, t.keyed)) =
      some ([0x26, 0x30, 0xC3, 0xCA], 4, 232, true) := by decide +kernel
/-- 95_test_vectors.md ERR-4. -/
theorem test_sc_sched_bad_keylen : (run .scSched State.reset).map statusWord = some 0x00300041 := by decide
/-- 43_stream_cipher.md R163, by hand from the identity: z = S[1 + 1] = 2, and then, with S[2] and S[3] exchanged,
z = S[2 + 3] = 5. -/
theorem test_sc_crypt :
    (run .scCrypt (put 0 [0x00, 0xFF] { keyed with len := 2, dst := 8 })).map
        (fun t => (t.bytes 8 2, t.scI, t.scJ, t.sbox.get 2)) = some ([0x02, 0xFA], 2, 3, 3) := by decide +kernel
/-- 44_rotating_xor.md R183, example. -/
theorem test_rx_loadkey :
    (run .rxLoadkey (put 0x100 [0x66, 0x74, 0x70, 0x32] { State.reset with keyAddr := 0x100 })).map (·.rxKey) =
      some 0x66747032 := by decide
/-- 95_test_vectors.md RX-E7: the overlap. -/
theorem test_rx_crypt_overlap :
    (run .rxCrypt (put 0 [0, 0, 0, 0, 0, 0, 0, 0] { State.reset with rxKey := 0x01010101, dst := 2, len := 8 })).map
        (fun t => (t.bytes 0 10, t.rxKey)) =
      some ([0x00, 0x00, 0x01, 0x01, 0x01, 0x01, 0x03, 0x03, 0x02, 0x02], 0x04040404) := by decide +kernel
/-- 95_test_vectors.md ERR-3. -/
theorem test_rx_crypt_bad_len : (run .rxCrypt { State.reset with len := 6 }).map statusWord = some 0x00410031 := by
  decide

/-! ### The bus (20_memory.md) -/

/-- R66: the 32-bit write, and what an 8-bit and a 16-bit read then return. -/
theorem test_mixed_width :
    (((stepped (arrived [.write .w32 0x1000 0x11223344, .read .w8 0x1001, .read .w16 0x1002])).bind stepped).bind
      stepped).map (·.readData) = some [0x33, 0x1122] := by decide
/-- 10_state.md R45: writing 0x00012345 to SRC stores 0x2345. -/
theorem test_field_bits : (stepped (arrived [.write .w32 0x008 0x00012345])).map (·.src) = some 0x2345 := by decide
/-- R63, R67: what is refused, and why. The last block has a BUF_SIZE that is no conforming one. -/
theorem test_refusals :
    step (arrived [.write .w32 0x002 1]) = .refused .misaligned ∧
    step (arrived [.read .w16 0x1001]) = .refused .misaligned ∧
    step (arrived [.write .w8 0x000 1]) = .refused .narrowRegisterAccess ∧
    step (arrived [.read .w16 0xFFE]) = .refused .narrowRegisterAccess ∧
    step { arrived [.read .w16 0x1010] with bufSize := 17 } = .refused .crossesRegion :=
  ⟨rfl, rfl, rfl, rfl, rfl⟩

/-! ### The assembler (30_encoding.md R97, R98, R101) -/

/-- Text to transactions: the first lines of 95_test_vectors.md P4, a pseudo-instruction, and a refused line. -/
theorem test_assemble :
    (assemble 4096 ["wb 0x000, aabb ; two bytes", "rx.setkey 0x11223344", "rd SBOX[1] -> 0x0"]).map
        (fun p => (programTransactions p).map BusEvent.text) =
      some ["W8 0x1000 0xAA", "W8 0x1001 0xBB", "W32 0x028 0x11223344", "R32 0x404"] ∧
    assemble 4096 ["ww 2, 0"] = none ∧ assemble 4096 ["cmd nop"] = none := by decide +kernel

/-! ### Witnesses: states and operands that meet the hypotheses of each statement -/

theorem witness_IllegalWordsRecordIllegalCmd :
    (arrived [commandWrite 0x42]).pending = commandWrite 0x42 :: [] ∧
    ([0x100, 0x00, 0x03, 0x0E, 0x14, 0x1F, 0x24, 0x2F, 0x32, 0x3F, 0x42, 0xFF].all fun v : Nat =>
      v / 256 ≠ 0 ∨ v % 256 = 0 ∨ (0x03 ≤ v % 256 ∧ v % 256 ≤ 0x0E) ∨ (0x14 ≤ v % 256 ∧ v % 256 ≤ 0x1F) ∨
        (0x24 ≤ v % 256 ∧ v % 256 ≤ 0x2F) ∨ (0x32 ≤ v % 256 ∧ v % 256 ≤ 0x3F) ∨ 0x42 ≤ v % 256) = true ∧
    (arrived [commandWrite 0x41]).pending = commandWrite 0x41 :: [] ∧ ¬(0x42 ≤ 0x41 % 256) := by decide
theorem witness_StepRunsDecodedCommand :
    (arrived [commandWrite 0x41, .reset]).pending = commandWrite 0x41 :: [.reset] ∧
    decode 0x41 = .ok .rxCrypt ∧ Instr.rxCrypt.wellFormed = true := by decide
theorem witness_IdleBlockWaits : State.reset.pending = [] := by decide
theorem witness_Crc16InitSetsRegister : State.reset.crc16 = 0xFFFF := by decide
theorem witness_Crc32InitSetsRegister : State.reset.crc32 = 0xFFFFFFFF := by decide

/-- A state with SRC, DST, LEN, KEYADDR and KEYLEN. -/
def ops (src dst len keyAddr : Half) (keyLen : BitVec 9) : State :=
  { keyed with src := src, dst := dst, len := len, keyAddr := keyAddr, keyLen := keyLen }

/-- CRC16.UPDATE and CRC32.UPDATE: the last byte of BUF, and one past it. -/
theorem witness_UpdateFoldsBytes :
    (ops 4090 0 6 0 0).src.toNat + (ops 4090 0 6 0 0).len.toNat = (ops 4090 0 6 0 0).bufSize ∧
    (ops 4090 0 7 0 0).src.toNat + (ops 4090 0 7 0 0).len.toNat = (ops 4090 0 7 0 0).bufSize + 1 := by decide
/-- CRC16.STORE, CRC16.CHECK, and CHECK after STORE. -/
theorem witness_Crc16StoreAndCheck :
    (ops 0 4094 0 0 0).dstAddr + 2 = (ops 0 4094 0 0 0).bufSize ∧
    (ops 0 4095 0 0 0).dstAddr + 2 = (ops 0 4095 0 0 0).bufSize + 1 := by decide
/-- CRC32.STORE, CRC32.CHECK, and CHECK after STORE. -/
theorem witness_Crc32StoreAndCheck :
    (ops 0 4092 0 0 0).dstAddr + 4 = (ops 0 4092 0 0 0).bufSize ∧
    (ops 0 4093 0 0 0).dstAddr + 4 = (ops 0 4093 0 0 0).bufSize + 1 := by decide
/-- Two UPDATEs up to the last byte of BUF; the SC.CRYPT and RX.CRYPT chains too (the state is keyed). -/
theorem witness_Chains :
    let s := ops 4088 4080 0 0 0
    s.bufSize ≤ 65536 ∧ s.keyed = true ∧ (4 : Half).toNat % 4 = 0 ∧ (4 : Half).toNat + (4 : Half).toNat < 65536 ∧
    s.src.toNat + (4 : Half).toNat + (4 : Half).toNat = s.bufSize ∧
    s.dst.toNat + (4 : Half).toNat + (4 : Half).toNat ≤ s.bufSize := by decide
/-- CRC-16 and CRC-32 of a sequence, stored at the end of BUF. -/
theorem witness_OfSequenceIsStored :
    let s := ops 4093 0 3 0 0
    s.srcAddr + s.length = s.bufSize ∧ (4094 : Half).toNat + 2 = s.bufSize ∧ (4092 : Half).toNat + 4 = s.bufSize := by
  decide
theorem witness_ZeroedFieldChecksum :
    let s := put 0x200 [0, 0, 0, 0] (ops 0 0 0 0 0)
    s.bufSize ≤ 65536 ∧ (0x200 : Half).toNat + 4 ≤ s.bufSize ∧ (4080 : Half).toNat + 4 + (12 : Half).toNat = s.bufSize ∧
    (4092 : Half).toNat + 4 + (0 : Half).toNat = s.bufSize ∧ ∀ k, k < 4 → s.byte ((0x200 : Half).toNat + k) = 0 := by decide
/-- SC.SCHED: each clause, at the ends of KEYLEN's range and of BUF. -/
theorem witness_ScSchedBuildsTable :
    (ops 0 0 0 0 0).keyLen.toNat = 0 ∧ (ops 0 0 0 0 257).keyLen.toNat > 256 ∧
    (let s := ops 0 0 0 3841 256
     1 ≤ s.keyLen.toNat ∧ s.keyLen.toNat ≤ 256 ∧ s.keyAddr.toNat + s.keyLen.toNat > s.bufSize) ∧
    (let s := ops 0 0 0 3840 256
     1 ≤ s.keyLen.toNat ∧ s.keyLen.toNat ≤ 256 ∧ s.keyAddr.toNat + s.keyLen.toNat ≤ s.bufSize) ∧
    (let s := ops 0 0 0 4095 1
     1 ≤ s.keyLen.toNat ∧ s.keyLen.toNat ≤ 256 ∧ s.keyAddr.toNat + s.keyLen.toNat ≤ s.bufSize) := by decide
/-- The two keys of R164's corner case, and a key of 257 bytes. -/
theorem witness_KeyScheduleReadsKeyCyclically :
    (∀ i, i < 256 → ([0x11] : List Byte).getD (i % 1) 0 = ([0x11, 0x11] : List Byte).getD (i % 2) 0) ∧
    256 ≤ (List.replicate 257 (0x5A : Byte)).length := by
  refine ⟨fun i _ => ?_, by rw [List.length_replicate]; omega⟩
  have h : i % 2 = 0 ∨ i % 2 = 1 := by omega
  rcases h with h | h <;> simp [h, Nat.mod_one]
/-- SC.CRYPT: not keyed; a source and a destination one byte too long; both to the last byte of BUF. -/
theorem witness_ScCryptXorsKeystream :
    State.reset.keyed = false ∧
    (let s := ops 4090 0 7 0 0
     s.keyed = true ∧ s.srcAddr + s.length > s.bufSize) ∧
    (let s := ops 0 4090 7 0 0
     s.keyed = true ∧ s.dstAddr + s.length > s.bufSize) ∧
    (let s := ops 4090 4091 5 0 0
     s.keyed = true ∧ s.srcAddr + s.length ≤ s.bufSize ∧ s.dstAddr + s.length ≤ s.bufSize) := by decide
theorem witness_SboxStaysPermutation :
    let s := ops 0 4090 6 0 0
    s.keyed = true ∧ s.srcAddr + s.length ≤ s.bufSize ∧ s.dstAddr + s.length ≤ s.bufSize ∧ s.sbox.IsPermutation :=
  ⟨rfl, by decide, by decide, SBox.identity_isPermutation⟩
/-- In place, with the key right before the data. -/
theorem witness_ScCryptIsSelfInverse :
    let s := ops 4090 4090 6 4088 2
    1 ≤ s.keyLength ∧ s.keyLength ≤ 256 ∧ s.keyAddress + s.keyLength ≤ s.bufSize ∧
    s.srcAddr + s.length ≤ s.bufSize ∧ s.dstAddr + s.length ≤ s.bufSize ∧
    ¬(s.srcAddr < s.dstAddr ∧ s.dstAddr < s.srcAddr + s.length) ∧
    (s.keyAddress + s.keyLength ≤ s.dstAddr ∨ s.dstAddr + s.length ≤ s.keyAddress) := by decide

/-- Two states with the same key bytes and the same input bytes at different addresses, and another CRC16. -/
def placed (a : Half) (crc : Half) : State :=
  put a.toNat [0x11, 0x22] { ops a 8 2 a 2 with crc16 := crc }

theorem witness_ScCommandsAreDeterministic :
    let s := placed 0x100 0
    let s' := placed 0x200 1
    expectedError .scSched s = none ∧ expectedError .scSched s' = none ∧ s.keyBytes = s'.keyBytes ∧
    expectedError .scCrypt s = none ∧ expectedError .scCrypt s' = none ∧ s.keystream = s'.keystream ∧
    s.len = s'.len ∧ ¬(s.srcAddr < s.dstAddr ∧ s.dstAddr < s.srcAddr + s.length) ∧
    ¬(s'.srcAddr < s'.dstAddr ∧ s'.dstAddr < s'.srcAddr + s'.length) ∧
    s.bytes s.srcAddr s.length = s'.bytes s'.srcAddr s'.length ∧
    (∃ t, exec .scSched s = .next t) ∧ (∃ t, exec .scSched s' = .next t) ∧
    (∃ t, exec .scCrypt s = .next t) ∧ (∃ t, exec .scCrypt s' = .next t) :=
  ⟨by decide, by decide, by decide, by decide, by decide, rfl, rfl, by decide, by decide, by decide,
    ⟨_, rfl⟩, ⟨_, rfl⟩, ⟨_, rfl⟩, ⟨_, rfl⟩⟩
theorem witness_RxLoadkeyReadsBigEndian :
    (ops 0 0 0 4092 0).keyAddress + 4 = (ops 0 0 0 4092 0).bufSize ∧
    (ops 0 0 0 4093 0).keyAddress + 4 > (ops 0 0 0 4093 0).bufSize := by decide
/-- RX.CRYPT: a bad LEN; a source and a destination too long; both to the last byte of BUF. -/
theorem witness_RxCryptXorsRotatedKey :
    (ops 0 0 6 0 0).length % 4 ≠ 0 ∧
    (let s := ops 4089 0 8 0 0
     s.length % 4 = 0 ∧ s.srcAddr + s.length > s.bufSize) ∧
    (let s := ops 0 4089 8 0 0
     s.length % 4 = 0 ∧ s.dstAddr + s.length > s.bufSize) ∧
    (let s := ops 4086 4088 8 0 0
     s.length % 4 = 0 ∧ s.srcAddr + s.length ≤ s.bufSize ∧ s.dstAddr + s.length ≤ s.bufSize) := by decide
theorem witness_RxCryptIsSelfInverse :
    let s := ops 4088 4088 8 0 0
    s.length % 4 = 0 ∧ s.srcAddr + s.length ≤ s.bufSize ∧ s.dstAddr + s.length ≤ s.bufSize ∧
    ¬(s.srcAddr < s.dstAddr ∧ s.dstAddr < s.srcAddr + s.length) := by decide
theorem witness_RxKeyHasPeriod32 :
    let s := ops 0 3968 128 0 0
    s.length % 128 = 0 ∧ s.srcAddr + s.length ≤ s.bufSize ∧ s.dstAddr + s.length ≤ s.bufSize := by decide

/-- Each code of the table but ILLEGAL_CMD, with ERR 0 and with ERR 1. -/
theorem witness_FailedCommandHasNoPartialEffect :
    expectedError .crc16Check (ops 0 4095 0 0 0) = some .range ∧ expectedError .rxCrypt (ops 0 0 6 0 0) = some .badLen ∧
    expectedError .scSched State.reset = some .badKeyLen ∧ expectedError .scCrypt failed = some .notKeyed ∧
    State.reset.err = false ∧ failed.err = true ∧
    (∃ t, exec .scSched State.reset = .next t) ∧ (∃ t, exec .scCrypt failed = .next t) :=
  ⟨by decide, by decide, by decide, by decide, rfl, rfl, ⟨_, rfl⟩, ⟨_, rfl⟩⟩
theorem witness_FirstErrorIsKept :
    failed.err = true ∧ (∃ t, exec .scCrypt failed = .next t) ∧ (∀ i, decode 0 ≠ .ok i) ∧
    (∃ t, issueCommand 0 failed = .next t) :=
  ⟨rfl, ⟨_, rfl⟩, fun i => by cases i <;> decide, ⟨_, rfl⟩⟩
/-- Every flag changes somewhere: an error, a clear, a match, a schedule and an SRESET. -/
theorem witness_FlagWriters :
    (run .scCrypt State.reset).map (·.err) = some true ∧ (run .clrstat failed).map (·.err) = some false ∧
    (run .crc16Check (put 0 [0xFF, 0xFF] State.reset)).map (·.matched) = some true ∧
    (run .scSched (put 0 [0x11] { State.reset with keyLen := 1 })).map (·.keyed) = some true ∧
    (run .sreset keyed).map (·.keyed) = some false := by decide
/-- Each engine register changes somewhere, and a BUF write that is no CMD write. -/
theorem witness_EngineStateWriters :
    (run .crc16Init { State.reset with crc16 := 0 }).map (·.crc16) = some 0xFFFF ∧
    (run .rxLoadkey (put 0 [1, 2, 3, 4] State.reset)).map (·.rxKey) = some 0x01020304 ∧
    (run .scCrypt { put 0 [0] keyed with len := 1 }).map (·.scI) = some 1 ∧
    expectedError .scCrypt State.reset ≠ none ∧ (0x1000 : Offset) ≠ 0 ∧
    (stepped (arrived [.write .w8 0x1000 0x5A])).map (·.byte 0) = some 0x5A := by decide +kernel
/-- For the statements about every command that answers a next state: one with each kind of outcome. -/
theorem witness_CommandAnswers :
    (∃ t, exec .sreset keyed = .next t) ∧ (∃ t, exec .crc16Store State.reset = .next t) ∧
    (∃ t, exec .scCrypt State.reset = .next t) ∧ expectedError .scCrypt State.reset ≠ none :=
  ⟨⟨_, rfl⟩, ⟨_, rfl⟩, ⟨_, rfl⟩, by decide⟩
theorem witness_RegisterWriteThenRead :
    (Reg.keyLen, (0x018 : Offset), (0x1FF : Word)) ∈ [(Reg.src, (0x008 : Offset), (0xFFFF : Word)),
      (.dst, 0x00C, 0xFFFF), (.len, 0x010, 0xFFFF), (.keyAddr, 0x014, 0xFFFF), (.keyLen, 0x018, 0x1FF),
      (.crc16, 0x01C, 0xFFFF), (.crc32, 0x020, 0xFFFFFFFF), (.rxKey, 0x028, 0xFFFFFFFF)] ∧
    (arrived [.write .w32 0x018 0xFFFFFFFF, .read .w32 0x018]).pending =
      .write .w32 0x018 0xFFFFFFFF :: .read .w32 0x018 :: [] := by decide
/-- The ends of the three ranges. -/
theorem witness_ReadOnlyRegistersIgnoreWrites :
    [(0x004 : Offset), 0x024, 0x02C, 0xFFC].all (fun off =>
      decide (off = 0x004 ∨ off = 0x024 ∨ (0x02C ≤ off.toNat ∧ off.toNat ≤ 0xFFC)) &&
        decide (off.toNat % 4 = 0)) = true ∧
    (arrived [.write .w32 0xFFC 1]).pending = .write .w32 0xFFC 1 :: [] := by decide
theorem witness_ViewsRead :
    (63 ≤ 63 ∧ 3 < 4) ∧ [(0x030 : Offset), 0x3FC, 0x500, 0xFFC].all (fun off =>
      decide (off.toNat % 4 = 0) &&
        decide ((0x030 ≤ off.toNat ∧ off.toNat ≤ 0x3FC) ∨ (0x500 ≤ off.toNat ∧ off.toNat ≤ 0xFFC))) = true := by
  decide
theorem witness_RefusedAccessesAreExactlyThese :
    Config.conformingBufSize (arrived []).bufSize = true ∧
    (arrived [.read .w16 0x1FFE]).pending = .read .w16 0x1FFE :: [] ∧
    ((0x1FFE : Offset).toNat % Width.bytes .w16 = 0 ∧ ((0x1FFE : Offset).toNat < 0x1000 → Width.w16 = .w32)) ∧
    (arrived [.write .w16 0x000 1]).pending = .write .w16 0x000 1 :: [] ∧
    ¬((0x000 : Offset).toNat % Width.bytes .w16 = 0 ∧ ((0x000 : Offset).toNat < 0x1000 → Width.w16 = .w32)) := by
  decide
theorem witness_ReadsAndWritesHaveNoSideEffects :
    (∃ t, serve (.read .w32 0x004) State.reset = .next t) ∧ (0x008 : Offset) ≠ 0 ∧
    (∃ t, serve (.write .w32 0x008 5) State.reset = .next t) := ⟨⟨_, rfl⟩, by decide, ⟨_, rfl⟩⟩
/-- The first and the last word of the window. -/
theorem witness_BufWindowIsLittleEndian :
    State.reset.bufSize ≤ 65536 ∧ 4092 % Width.bytes .w32 = 0 ∧ 4092 + Width.bytes .w32 ≤ State.reset.bufSize ∧
    (arrived [.write .w32 (BitVec.ofNat 17 (0x1000 + 4092)) 7]).pending =
      .write .w32 (BitVec.ofNat 17 (0x1000 + 4092)) 7 :: [] ∧
    0 % Width.bytes .w8 = 0 ∧ 0 + Width.bytes .w8 ≤ State.reset.bufSize ∧
    (arrived [.read .w8 (BitVec.ofNat 17 (0x1000 + 0))]).pending =
      .read .w8 (BitVec.ofNat 17 (0x1000 + 0)) :: [] := by decide
/-- The first and the last offset of the region. -/
theorem witness_UnmappedReadsZeroIgnoresWrites :
    Config.conformingBufSize State.reset.bufSize = true ∧
    0x1000 + State.reset.bufSize ≤ (0x2000 : Offset).toNat ∧ (0x2000 : Offset).toNat % Width.bytes .w32 = 0 ∧
    (arrived [.read .w32 0x2000]).pending = .read .w32 0x2000 :: [] ∧
    0x1000 + State.reset.bufSize ≤ (0x1FFFF : Offset).toNat ∧ (0x1FFFF : Offset).toNat % Width.bytes .w8 = 0 ∧
    (arrived [.write .w8 0x1FFFF 1]).pending = .write .w8 0x1FFFF 1 :: [] := by decide
/-- The lanes by the words of R62: an 8-bit access at offset mod 4 = 3 uses bits [31:24], a 16-bit one at 2 bits [31:16]. -/
theorem witness_ByteLanesCarryTheValue :
    (0x1003 : Offset).toNat % Width.bytes .w8 = 0 ∧ (0x1002 : Offset).toNat % Width.bytes .w16 = 0 ∧
    toLanes .w8 0x1003 0x11223344 = 0x44000000 ∧ fromLanes .w16 0x1002 0x11223344 = 0x1122 ∧
    State.reset.bufSize ≤ 65536 ∧ 4095 % Width.bytes .w8 = 0 ∧ 4095 + Width.bytes .w8 = State.reset.bufSize ∧
    4094 % Width.bytes .w16 = 0 ∧ 4094 + Width.bytes .w16 = State.reset.bufSize := by decide
theorem witness_ResetInputResetsBlock : (arrived [.reset, .read .w32 4]).pending = .reset :: [.read .w32 4] := by decide
theorem witness_ResetAbandonsCommand :
    (arrived [commandWrite 0x31, .reset]).pending = commandWrite 0x31 :: .reset :: [] := by decide
theorem witness_UnwrittenBytesReadTheDraw :
    (arrived [.write .w8 0x1000 1]).pending.head? ≠ some .reset ∧
    (stepped (arrived [.write .w8 0x1000 1])).map (fun t => (t.buf.lookup 0, t.buf.lookup 1)) =
      some (some 1, none) := by decide

/-- A keyed state, with a byte written and a command pending. -/
def busy : State := { put 3 [0x5A] keyed with pending := [commandWrite 0x31] }

theorem witness_StepKeepsInvariant : busy.Inv ∧ ∃ t, step busy = .next t :=
  ⟨⟨by decide, by decide, by decide, by decide, fun _ => SBox.identity_isPermutation⟩, ⟨_, rfl⟩⟩
theorem witness_CommandsAlwaysComplete :
    busy.pending = commandWrite 0x31 :: [] ∧ (arrived [.reset]).pending = .reset :: [] := by decide
/-- Two states that list different cells and read alike: the second lists what an unlisted byte reads as. -/
theorem witness_OnlyReadsOfBufMatter :
    ReadsAlike State.reset { State.reset with buf := [(0, Config.resetBuf 0 0)] } := by
  refine ⟨rfl, fun a => ?_⟩
  by_cases h : 0 = a
  · subst h; rfl
  · simp [State.byte, Memory.read, Memory.lookup, h, State.reset, State.powerOn]

end Sys2Proof.Tests
end

section
/-! SUPPORT. What a command can do, said once for all fifteen: its checks, its effect, and each field after it. -/

namespace Sys2Proof.Machine

/-! ### A command is its checks and its effect -/

/-- The checks of a command in the order it makes them (60_exceptions.md R205). -/
def commandChecks (i : Instr) (s : State) : List (Bool × ErrorCode) :=
  match i with
  | .nop | .clrstat | .sreset | .crc16Init | .crc32Init => []
  | .crc16Update | .crc32Update => [(s.outOfRange s.srcAddr s.length, .range)]
  | .crc16Store | .crc16Check => [(s.outOfRange s.dstAddr 2, .range)]
  | .crc32Store | .crc32Check => [(s.outOfRange s.dstAddr 4, .range)]
  | .scSched => [(s.badKeyLength, .badKeyLen), (s.outOfRange s.keyAddress s.keyLength, .range)]
  | .scCrypt =>
    [(!s.keyed, .notKeyed), (s.outOfRange s.srcAddr s.length, .range), (s.outOfRange s.dstAddr s.length, .range)]
  | .rxLoadkey => [(s.outOfRange s.keyAddress 4, .range)]
  | .rxCrypt =>
    [(s.badLength, .badLen), (s.outOfRange s.srcAddr s.length, .range), (s.outOfRange s.dstAddr s.length, .range)]

/-- The state after a command whose checks all pass. -/
def commandEffect (i : Instr) (s : State) : State :=
  match i with
  | .nop => s
  | .clrstat => clearError s
  | .sreset => softReset s
  | .crc16Init => s.setCrc16 0xFFFF
  | .crc16Update => s.setCrc16 (crc16Seq s.crc16 (s.bytes s.srcAddr s.length))
  | .crc16Store => s.store s.dstAddr 2 (s.crc16.zeroExtend 32)
  | .crc16Check => setMatchFrom s.dstAddr 2 (s.crc16.zeroExtend 32) s
  | .crc32Init => s.setCrc32 0xFFFFFFFF
  | .crc32Update => s.setCrc32 (crc32Seq s.crc32 (s.bytes s.srcAddr s.length))
  | .crc32Store => s.store s.dstAddr 4 (crc32Final s.crc32)
  | .crc32Check => setMatchFrom s.dstAddr 4 (crc32Final s.crc32) s
  | .scSched => scheduleKey s
  | .scCrypt => scCryptRange s
  | .rxLoadkey => loadKey s
  | .rxCrypt => rxCryptRange s

theorem exec_eq_runCommand (i : Instr) (s : State) :
    exec i s = runCommand i (commandChecks i s) (commandEffect i) (beforeError i s) := by
  cases i <;> rfl

/-- The checks give the error of the table of 60_exceptions.md R204. -/
theorem firstError_commandChecks (i : Instr) (s : State) : firstError (commandChecks i s) = expectedError i s := by
  have keyLength : s.badKeyLength = true ↔ s.keyLen = 0 ∨ s.keyLen.toNat > 256 := by
    rw [State.badKeyLength_iff, BitVec.toNat_eq]; rfl
  have twoRanges (p q : Prop) [Decidable p] [Decidable q] :
      (if p then some ErrorCode.range else if q then some .range else none) =
        (if p then some .range else none).or (if q then some .range else none) := by split <;> rfl
  cases i <;> simp only [commandChecks, expectedError, firstError_cons, firstError_nil, State.outOfRange_iff,
    State.badLength_iff, keyLength, Bool.not_eq_true', gt_iff_lt, twoRanges]

/-- A CHECK's effect writes MATCH whatever it was before. -/
theorem commandEffect_beforeError (i : Instr) (s : State) : commandEffect i (beforeError i s) = commandEffect i s := by
  cases i <;> rfl

/-- A command whose checks pass has its effect. -/
theorem exec_ok {i : Instr} {s : State} (h : expectedError i s = none) : exec i s = .next (commandEffect i s) := by
  rw [exec_eq_runCommand, runCommand_ok (by rw [firstError_commandChecks, h]), commandEffect_beforeError]

/-- A command one of whose checks fails records its error, and nothing else but a CHECK's MATCH changes. -/
theorem exec_error {i : Instr} {s : State} {code : ErrorCode} (h : expectedError i s = some code) :
    exec i s = .next (raiseError code i.opcode (beforeError i s)) := by
  rw [exec_eq_runCommand, runCommand_error (by rw [firstError_commandChecks, h])]

/-- All that a command can do: record the error its checks give, or have its effect. -/
theorem exec_cases {i : Instr} {s t : State} (h : exec i s = .next t) :
    (∃ code, expectedError i s = some code ∧ t = raiseError code i.opcode (beforeError i s)) ∨
      (expectedError i s = none ∧ t = commandEffect i s) := by
  cases he : expectedError i s with
  | none => rw [exec_ok he] at h; cases h; exact .inr ⟨rfl, rfl⟩
  | some code => rw [exec_error he] at h; cases h; exact .inl ⟨code, rfl, rfl⟩

theorem beforeError_eq (i : Instr) (s : State) :
    beforeError i s = { s with matched := if isCheck i then false else s.matched } := by
  unfold beforeError
  split <;> rfl

/-- The state after a command that failed, in one equation. -/
theorem raiseError_beforeError (code : ErrorCode) (i : Instr) (s : State) :
    raiseError code i.opcode (beforeError i s) = { s with
      err := true, errCode := if s.err then s.errCode else code, errOp := if s.err then s.errOp else i.opcode,
      matched := if isCheck i then false else s.matched } := by
  rw [raiseError_eq, beforeError_eq]

/-- The error recorded is that of a check that fails. -/
theorem mem_of_firstError {checks : List (Bool × ErrorCode)} {code : ErrorCode} (h : firstError checks = some code) :
    (true, code) ∈ checks := by
  induction checks with
  | nil => cases h
  | cons c rest ih =>
    obtain ⟨fails, e⟩ := c
    cases fails with
    | false => exact List.mem_cons_of_mem _ (ih h)
    | true => cases h; exact List.mem_cons_self

/-- Where no error is recorded no check fails. -/
theorem passes_of_firstError {checks : List (Bool × ErrorCode)} (h : firstError checks = none) :
    ∀ c ∈ checks, c.1 = false := by
  induction checks with
  | nil => simp
  | cons c rest ih =>
    obtain ⟨fails, e⟩ := c
    cases fails with
    | false => exact List.forall_mem_cons.2 ⟨rfl, ih h⟩
    | true => cases h

/-- A check that fails names a code other than NONE. -/
theorem code_ne_none_of_expectedError {i : Instr} {s : State} {code : ErrorCode} (h : expectedError i s = some code) :
    code ≠ .none := by
  rintro rfl
  rw [← firstError_commandChecks] at h
  have := mem_of_firstError h
  cases i <;> simp [commandChecks] at this

/-- The bytes that a command stores lie in BUF when its checks pass (60_exceptions.md R203). -/
theorem storeRange_inRange {i : Instr} {s : State} (h : expectedError i s = none) :
    (storeRange i s).1 + (storeRange i s).2 ≤ s.bufSize := by
  rw [← firstError_commandChecks] at h
  have passes := passes_of_firstError h
  cases i <;> simp_all [commandChecks, storeRange, State.inRange_iff]

/-! ### The effect of each command, in one equation -/

section Effects
variable (s : State)

@[simp] theorem commandEffect_nop : commandEffect .nop s = s := rfl

@[simp] theorem commandEffect_clrstat :
    commandEffect .clrstat s = { s with err := false, errCode := .none, errOp := 0, matched := false } := rfl

@[simp] theorem commandEffect_sreset : commandEffect .sreset s = { s with
    src := 0, dst := 0, len := 0, keyAddr := 0, keyLen := 0, crc16 := 0xFFFF, crc32 := 0xFFFFFFFF, rxKey := 0,
    scI := 0, scJ := 0, keyed := false, err := false, errCode := .none, errOp := 0, matched := false } :=
  softReset_eq s

@[simp] theorem commandEffect_crc16Init : commandEffect .crc16Init s = { s with crc16 := 0xFFFF } := rfl

@[simp] theorem commandEffect_crc16Update :
    commandEffect .crc16Update s = { s with crc16 := crc16Seq s.crc16 (s.bytes s.srcAddr s.length) } := rfl

@[simp] theorem commandEffect_crc16Store :
    commandEffect .crc16Store s = { s with buf := s.buf.writeLE s.dstAddr 2 (s.crc16.zeroExtend 32) } := rfl

@[simp] theorem commandEffect_crc16Check :
    commandEffect .crc16Check s = { s with matched := s.load s.dstAddr 2 == s.crc16.zeroExtend 32 } := rfl

@[simp] theorem commandEffect_crc32Init : commandEffect .crc32Init s = { s with crc32 := 0xFFFFFFFF } := rfl

@[simp] theorem commandEffect_crc32Update :
    commandEffect .crc32Update s = { s with crc32 := crc32Seq s.crc32 (s.bytes s.srcAddr s.length) } := rfl

@[simp] theorem commandEffect_crc32Store :
    commandEffect .crc32Store s = { s with buf := s.buf.writeLE s.dstAddr 4 (crc32Final s.crc32) } := rfl

@[simp] theorem commandEffect_crc32Check :
    commandEffect .crc32Check s = { s with matched := s.load s.dstAddr 4 == crc32Final s.crc32 } := rfl

@[simp] theorem commandEffect_scSched :
    commandEffect .scSched s = { s with sbox := ksa s.keyBytes, scI := 0, scJ := 0, keyed := true } :=
  scheduleKey_eq s

@[simp] theorem commandEffect_scCrypt : commandEffect .scCrypt s = { s with
    buf := (scLoop s.draw s.length s.srcAddr s.dstAddr s.buf s.keystream).1
    sbox := (keystreamAfter s.length s.keystream).sbox
    scI := (keystreamAfter s.length s.keystream).i
    scJ := (keystreamAfter s.length s.keystream).j } := scCryptRange_eq s

@[simp] theorem commandEffect_rxLoadkey : commandEffect .rxLoadkey s = { s with
    rxKey := keyInteger (s.byte s.keyAddress) (s.byte (s.keyAddress + 1)) (s.byte (s.keyAddress + 2))
      (s.byte (s.keyAddress + 3)) } := rfl

@[simp] theorem commandEffect_rxCrypt : commandEffect .rxCrypt s = { s with
    buf := (rxLoop s.draw (s.length / 4) s.srcAddr s.dstAddr s.buf s.rxKey).1
    rxKey := s.rxKey.rotateLeft (s.length / 4) } := rxCryptRange_eq s

end Effects

/-! ### What each field is after a command's effect (10_state.md R21, R41, R42) -/

section Fields
variable (i : Instr) (s : State)

theorem commandEffect_err :
    (commandEffect i s).err = if i = .clrstat ∨ i = .sreset then false else s.err := by cases i <;> simp

theorem commandEffect_errCode :
    (commandEffect i s).errCode = if i = .clrstat ∨ i = .sreset then .none else s.errCode := by cases i <;> simp

theorem commandEffect_errOp :
    (commandEffect i s).errOp = if i = .clrstat ∨ i = .sreset then 0 else s.errOp := by cases i <;> simp

theorem commandEffect_matched {i : Instr} (h : isCheck i = false) :
    (commandEffect i s).matched = if i = .clrstat ∨ i = .sreset then false else s.matched := by
  cases i <;> simp [isCheck] at h ⊢

theorem commandEffect_keyed :
    (commandEffect i s).keyed = if i = .scSched then true else if i = .sreset then false else s.keyed := by
  cases i <;> simp

/-- Every command but SRESET only reads the operand registers (10_state.md R21). -/
theorem commandEffect_operands (h : i ≠ .sreset) :
    (commandEffect i s).src = s.src ∧ (commandEffect i s).dst = s.dst ∧ (commandEffect i s).len = s.len ∧
      (commandEffect i s).keyAddr = s.keyAddr ∧ (commandEffect i s).keyLen = s.keyLen := by
  cases i <;> simp at h ⊢

/-- No command writes BUF_SIZE, nor the model's own record of draws, events and read data. -/
theorem commandEffect_environment :
    (commandEffect i s).bufSize = s.bufSize ∧ (commandEffect i s).draw = s.draw ∧
      (commandEffect i s).pending = s.pending ∧ (commandEffect i s).readData = s.readData := by
  cases i <;> simp

/-- Which commands can change each piece of the engine state (10_state.md R42). -/
theorem commandEffect_crc16_writers (h : (commandEffect i s).crc16 ≠ s.crc16) :
    i = .crc16Init ∨ i = .crc16Update ∨ i = .sreset := by cases i <;> simp at h ⊢

theorem commandEffect_crc32_writers (h : (commandEffect i s).crc32 ≠ s.crc32) :
    i = .crc32Init ∨ i = .crc32Update ∨ i = .sreset := by cases i <;> simp at h ⊢

theorem commandEffect_rxKey_writers (h : (commandEffect i s).rxKey ≠ s.rxKey) :
    i = .rxLoadkey ∨ i = .rxCrypt ∨ i = .sreset := by cases i <;> simp at h ⊢

theorem commandEffect_sbox_writers (h : (commandEffect i s).sbox ≠ s.sbox) :
    i = .scSched ∨ i = .scCrypt := by cases i <;> simp at h ⊢

theorem commandEffect_indices_writers (h : (commandEffect i s).scI ≠ s.scI ∨ (commandEffect i s).scJ ≠ s.scJ) :
    i = .scSched ∨ i = .scCrypt ∨ i = .sreset := by cases i <;> simp at h ⊢

theorem commandEffect_buf_writers (h : (commandEffect i s).buf ≠ s.buf) :
    i = .crc16Store ∨ i = .crc32Store ∨ i = .scCrypt ∨ i = .rxCrypt := by cases i <;> simp at h ⊢

end Fields

end Sys2Proof.Machine
end

section
/-! SUPPORT. The invariant: which updates keep it, and that the tables of the stream cipher stay permutations. -/

namespace Sys2Proof.Machine

/-! ### Permutations (10_state.md R38) -/

/-- A step of the key schedule only swaps entries, so the fold over any list of steps keeps a permutation. -/
theorem foldl_ksaStep_isPermutation (key : List Byte) (steps : List Nat) {st : SBox × Byte}
    (h : st.1.IsPermutation) : (steps.foldl (ksaStep key) st).1.IsPermutation := by
  induction steps generalizing st with
  | nil => exact h
  | cons i rest ih => exact ih (SBox.swap_isPermutation _ _ h)

theorem ksa_isPermutation (key : List Byte) : (ksa key).IsPermutation := by
  unfold ksa
  exact foldl_ksaStep_isPermutation key _ SBox.identity_isPermutation

theorem keystreamAfter_isPermutation (n : Nat) {c : Keystream} (h : c.sbox.IsPermutation) :
    (keystreamAfter n c).sbox.IsPermutation := by
  induction n generalizing c with
  | zero => exact h
  | succ n ih => exact ih (SBox.swap_isPermutation _ _ h)

/-- I counts the keystream steps, mod 256. -/
theorem keystreamAfter_i (n : Nat) (c : Keystream) : (keystreamAfter n c).i = c.i + BitVec.ofNat 8 n := by
  induction n generalizing c with
  | zero => simp
  | succ n ih =>
    rw [keystreamAfter_succ, ih, prga_fst, Nat.add_comm n 1, BitVec.ofNat_add, ← BitVec.add_assoc]
    rfl

/-! ### What keeps the invariant -/

/-- The invariant is about BUF, BUF_SIZE, the error record, KEYED and S: it holds whatever the other fields are. -/
theorem State.Inv.congr {s t : State} (h : s.Inv) (e : t = { s with
      draw := t.draw, src := t.src, dst := t.dst, len := t.len, keyAddr := t.keyAddr, keyLen := t.keyLen,
      crc16 := t.crc16, crc32 := t.crc32, rxKey := t.rxKey, scI := t.scI, scJ := t.scJ, matched := t.matched,
      pending := t.pending, readData := t.readData }) : t.Inv := by
  rw [e]
  exact ⟨h.conforming, h.canonical, h.within, h.status, h.keyed⟩

/-- BUF's contents may change within BUF, in canonical form. -/
theorem State.Inv.setBuf {s : State} (h : s.Inv) {m : Memory} (canonical : m.wf = true)
    (within : m.within s.bufSize = true) : (s.setBuf m).Inv :=
  ⟨h.conforming, canonical, within, h.status, h.keyed⟩

theorem State.Inv.store {s : State} (h : s.Inv) {a n : Nat} (v : Word) (inRange : a + n ≤ s.bufSize) :
    (s.store a n v).Inv :=
  h.setBuf (Memory.wf_writeLE a n v h.canonical) (Memory.within_writeLE a n v h.within inRange)

/-- Recording an error that has a code keeps the status fields in agreement. -/
theorem State.Inv.raiseError {s : State} (h : s.Inv) {code : ErrorCode} (op : Byte) (hc : code ≠ .none) :
    (raiseError code op s).Inv := by
  cases he : s.err with
  | true => rwa [raiseError_again code op he]
  | false =>
    rw [raiseError_first code op he]
    exact ⟨h.conforming, h.canonical, h.within, by simpa [State.statusCoherent] using hc, h.keyed⟩

theorem State.Inv.clearError {s : State} (h : s.Inv) : (clearError s).Inv :=
  ⟨h.conforming, h.canonical, h.within, rfl, h.keyed⟩

/-- A power-on reset keeps only BUF_SIZE, and what it gives has the invariant (70_reset_and_hazards.md R230). -/
theorem State.powerOn_inv {bufSize : Nat} (h : Config.conformingBufSize bufSize = true) (draw : Nat)
    (pending : List BusEvent) (readData : List Word) : (State.powerOn bufSize draw pending readData).Inv :=
  ⟨h, Memory.wf_nil, Memory.within_nil _, rfl, fun keyed => nomatch keyed⟩

theorem State.Inv.writeRegister {s : State} (h : s.Inv) (r : Reg) (v : Word) : (writeRegister r v s).Inv := by
  rw [writeRegister_frame]
  exact h.congr rfl

/-- The commands that change a field of the invariant: the stores and ciphers, within their range; SC.SCHED, whose
table is a permutation; CLRSTAT and SRESET, which clear the error record. -/
theorem State.Inv.commandEffect {s : State} (h : s.Inv) {i : Instr} (ok : expectedError i s = none) :
    (commandEffect i s).Inv := by
  have inRange := storeRange_inRange ok
  cases i with
  | nop => exact h
  | clrstat => exact h.clearError
  | sreset =>
    rw [commandEffect_sreset]
    exact ⟨h.conforming, h.canonical, h.within, rfl, fun keyed => nomatch keyed⟩
  | crc16Store => exact h.store _ inRange
  | crc32Store => exact h.store _ inRange
  | scSched =>
    rw [commandEffect_scSched]
    exact ⟨h.conforming, h.canonical, h.within, h.status, fun _ => ksa_isPermutation _⟩
  | scCrypt =>
    rw [commandEffect_scCrypt]
    exact ⟨h.conforming, scLoop_wf _ _ _ _ _ h.canonical, scLoop_within _ _ _ _ _ h.within inRange, h.status,
      fun keyed => keystreamAfter_isPermutation _ (h.keyed keyed)⟩
  | rxCrypt =>
    have words : s.dstAddr + 4 * (s.length / 4) ≤ s.bufSize :=
      (Nat.add_le_add_left (Nat.mul_div_le _ _) _).trans inRange
    rw [commandEffect_rxCrypt]
    exact ⟨h.conforming, rxLoop_wf _ _ _ _ _ h.canonical, rxLoop_within _ _ _ _ _ h.within words, h.status, h.keyed⟩
  | crc16Init | crc16Update | crc16Check | crc32Init | crc32Update | crc32Check | rxLoadkey => exact h.congr rfl

theorem State.Inv.exec {s t : State} (h : s.Inv) {i : Instr} (e : exec i s = .next t) : t.Inv := by
  obtain ⟨code, hcode, rfl⟩ | ⟨ok, rfl⟩ := exec_cases e
  · have : (beforeError i s).Inv := by rw [beforeError_eq]; exact h.congr rfl
    exact this.raiseError _ (code_ne_none_of_expectedError hcode)
  · exact h.commandEffect ok

theorem State.Inv.issueCommand {s t : State} (h : s.Inv) {v : Word} (e : issueCommand v s = .next t) : t.Inv := by
  cases hd : decode v with
  | ok i => rw [issueCommand_legal s hd] at e; exact h.exec e
  | error d =>
    rw [issueCommand_illegal s hd] at e
    cases e
    exact h.raiseError _ (by decide)

/-- The addresses of an admitted access to the BUF window lie in BUF (20_memory.md R63). -/
theorem refusalOf_none_inRange {bufSize off : Nat} {w : Width} (admitted : refusalOf bufSize w off = none)
    (buffer : regionOf bufSize off = .buffer) : off - Config.bufBase + w.bytes ≤ bufSize := by
  have last : regionOf bufSize (off + w.bytes - 1) = .buffer := by
    unfold refusalOf at admitted
    split_ifs at admitted with _ crosses
    exact (not_not.1 crosses).symm.trans buffer
  rw [regionOf_eq_buffer] at buffer last
  show off - 0x1000 + w.bytes ≤ bufSize
  omega

theorem State.Inv.serveWrite {s t : State} (h : s.Inv) {w : Width} {off : Nat} {v : Word}
    (e : serveWrite w off v s = .next t) : t.Inv := by
  obtain ⟨admitted, ⟨_, _, issued⟩ | ⟨_, _, rfl⟩ | ⟨buffer, rfl⟩ | ⟨_, rfl⟩⟩ := serveWrite_cases e
  · exact h.issueCommand issued
  · exact h.writeRegister _ v
  · exact h.store v (refusalOf_none_inRange admitted buffer)
  · exact h

theorem State.Inv.serve {s t : State} (h : s.Inv) {event : BusEvent} (e : serve event s = .next t) : t.Inv := by
  cases event with
  | read w off => obtain ⟨_, rfl⟩ := serveRead_cases e; exact h.congr rfl
  | write w off v => exact h.serveWrite e
  | reset => cases e; exact State.powerOn_inv h.conforming _ _ _

end Sys2Proof.Machine
end

section
/-! SUPPORT. The register space: what a 32-bit access at an offset does, what a register write does to each register,
and the fields of STATUS, SCIJ and the SBOX window. -/

namespace Sys2Proof.Machine

/-! ### A 32-bit access to the register space -/

/-- An aligned 32-bit access to the register space is admitted (20_memory.md R63, R67). -/
theorem refusalOf_register (bufSize : Nat) {off : Nat} (space : off < 0x1000) (aligned : off % 4 = 0) :
    refusalOf bufSize .w32 off = none := by
  have first : regionOf bufSize off = .registers := regionOf_eq_registers.2 space
  have last : regionOf bufSize (off + Width.bytes .w32 - 1) = .registers :=
    regionOf_eq_registers.2 (show off + 4 - 1 < 0x1000 by omega)
  simp only [refusalOf, first, last]
  simp [Width.bytes, aligned]

theorem serve_register_write {off : Offset} {r : Reg} (v : Word) (s : State) (space : off.toNat < 0x1000)
    (aligned : off.toNat % 4 = 0) (at_r : regAt off.toNat = r) (stored : r ≠ .cmd) :
    serve (.write .w32 off v) s = .next (writeRegister r v s) := by
  subst at_r
  simp [serve, serveWrite, refusalOf_register _ space aligned, writeEffect, regionOf_eq_registers.2 space, stored]

theorem serve_register_read {off : Offset} {r : Reg} (s : State) (space : off.toNat < 0x1000)
    (aligned : off.toNat % 4 = 0) (at_r : regAt off.toNat = r) :
    serve (.read .w32 off) s = .next { s with readData := s.readData ++ [readRegister r s] } := by
  subst at_r
  simp [serve, serveRead, refusalOf_register _ space aligned, readValue, regionOf_eq_registers.2 space, deliver,
    State.setReadData]

/-! ### A register write changes its own field only -/

section Writes
variable {r : Reg} (v : Word) (s : State)

theorem writeRegister_src_of_ne (h : r ≠ .src) : (writeRegister r v s).src = s.src := by
  cases r <;> first | rfl | exact absurd rfl h

theorem writeRegister_dst_of_ne (h : r ≠ .dst) : (writeRegister r v s).dst = s.dst := by
  cases r <;> first | rfl | exact absurd rfl h

theorem writeRegister_len_of_ne (h : r ≠ .len) : (writeRegister r v s).len = s.len := by
  cases r <;> first | rfl | exact absurd rfl h

theorem writeRegister_keyAddr_of_ne (h : r ≠ .keyAddr) : (writeRegister r v s).keyAddr = s.keyAddr := by
  cases r <;> first | rfl | exact absurd rfl h

theorem writeRegister_keyLen_of_ne (h : r ≠ .keyLen) : (writeRegister r v s).keyLen = s.keyLen := by
  cases r <;> first | rfl | exact absurd rfl h

theorem writeRegister_crc16_of_ne (h : r ≠ .crc16) : (writeRegister r v s).crc16 = s.crc16 := by
  cases r <;> first | rfl | exact absurd rfl h

theorem writeRegister_crc32_of_ne (h : r ≠ .crc32) : (writeRegister r v s).crc32 = s.crc32 := by
  cases r <;> first | rfl | exact absurd rfl h

theorem writeRegister_rxKey_of_ne (h : r ≠ .rxKey) : (writeRegister r v s).rxKey = s.rxKey := by
  cases r <;> first | rfl | exact absurd rfl h

/-- Every register but the one written, and CRC32's view CRC32OUT, reads as before. -/
theorem readRegister_writeRegister_other {q : Reg} (h : q ≠ r) (view : q = .crc32Out → r ≠ .crc32) :
    readRegister q (writeRegister r v s) = readRegister q s := by
  cases q with
  | src => simp only [readRegister, writeRegister_src_of_ne v s h.symm]
  | dst => simp only [readRegister, writeRegister_dst_of_ne v s h.symm]
  | len => simp only [readRegister, writeRegister_len_of_ne v s h.symm]
  | keyAddr => simp only [readRegister, writeRegister_keyAddr_of_ne v s h.symm]
  | keyLen => simp only [readRegister, writeRegister_keyLen_of_ne v s h.symm]
  | crc16 => simp only [readRegister, writeRegister_crc16_of_ne v s h.symm]
  | crc32 => simp only [readRegister, writeRegister_crc32_of_ne v s h.symm]
  | crc32Out => simp only [readRegister, writeRegister_crc32_of_ne v s (view rfl)]
  | rxKey => simp only [readRegister, writeRegister_rxKey_of_ne v s h.symm]
  | cmd | reserved => rfl
  | status | scij | sboxWord => rw [writeRegister_frame]; rfl

end Writes

/-- The bits of its field that an RW register keeps of a value (10_state.md R26-R34, R45); none in any other. -/
def Reg.fieldMask : Reg → Option Word
  | .src | .dst | .len | .keyAddr | .crc16 => some 0xFFFF
  | .keyLen => some 0x1FF
  | .crc32 | .rxKey => some 0xFFFFFFFF
  | .cmd | .status | .crc32Out | .scij | .sboxWord _ | .reserved => none

/-- A field of the low `n` bits, zero-extended, is the value under the mask of those bits. -/
theorem zeroExtend_extractLsb'_zero (v : Word) (n : Nat) :
    (v.extractLsb' 0 n).zeroExtend 32 = v &&& BitVec.ofNat 32 (2 ^ n - 1) := by
  apply BitVec.eq_of_getLsbD_eq
  intro i hi
  simp only [BitVec.getLsbD_setWidth, BitVec.getLsbD_extractLsb', BitVec.getLsbD_and, BitVec.getLsbD_ofNat,
    Nat.testBit_two_pow_sub_one]
  simp [hi, Bool.and_comm]

theorem readRegister_writeRegister_same {r : Reg} {mask : Word} (h : r.fieldMask = some mask) (v : Word) (s : State) :
    readRegister r (writeRegister r v s) = v &&& mask := by
  cases r <;> cases h
  case keyLen => exact zeroExtend_extractLsb'_zero v 9
  case crc32 | rxKey => exact (BitVec.and_allOnes (x := v)).symm
  all_goals exact zeroExtend_extractLsb'_zero v 16

/-- A register read does not see what is still to arrive. -/
theorem readRegister_setPending (q : Reg) (l : List BusEvent) (s : State) :
    readRegister q (s.setPending l) = readRegister q s := by
  cases q <;> rfl

/-! ### The fields of the words that views return -/

/-- Four bytes laid out in a word from bit 0 up are its bytes. -/
theorem extract_fourBytes (b : Nat → Byte) {n : Nat} (hn : n < 4) :
    ((b 0).zeroExtend 32 ||| ((b 1).zeroExtend 32) <<< 8 ||| ((b 2).zeroExtend 32) <<< 16 |||
      ((b 3).zeroExtend 32) <<< 24 : Word).extractLsb' (8 * n) 8 = b n := by
  apply BitVec.eq_of_getLsbD_eq
  intro i hi
  interval_cases n <;> interval_cases i <;> simp

/-- Byte n of word m of the SBOX window is S[4m + n] (10_state.md R36). -/
theorem extract_sboxWindow (t : SBox) (m : BitVec 6) {n : Nat} (hn : n < 4) :
    (sboxWindow t m).extractLsb' (8 * n) 8 = t.get (BitVec.ofNat 8 (4 * m.toNat + n)) :=
  extract_fourBytes (fun k => t.get (BitVec.ofNat 8 (4 * m.toNat + k))) hn

/-- SCIJ: J above I (10_state.md R35). -/
theorem readRegister_scij (s : State) : readRegister .scij s = (0 : BitVec 16) ++ (s.scJ ++ s.scI) := by
  apply BitVec.eq_of_getLsbD_eq
  intro i hi
  refine Eq.trans ?_ (BitVec.getLsbD_append (x := (0 : BitVec 16)) (y := s.scJ ++ s.scI)).symm
  rw [BitVec.getLsbD_append]
  interval_cases i <;> simp [readRegister]

/-- The fields of STATUS (10_state.md R25). -/
theorem statusWord_err (s : State) : (statusWord s).getLsbD 0 = s.err := by simp [statusWord]
theorem statusWord_matched (s : State) : (statusWord s).getLsbD 8 = s.matched := by simp [statusWord]
theorem statusWord_keyed (s : State) : (statusWord s).getLsbD 9 = s.keyed := by simp [statusWord]

theorem statusWord_errCode (s : State) : (statusWord s).extractLsb' 4 4 = s.errCode.bits := by
  apply BitVec.eq_of_getLsbD_eq
  intro i hi
  interval_cases i <;> simp [statusWord]

theorem statusWord_errOp (s : State) : (statusWord s).extractLsb' 16 8 = s.errOp := by
  apply BitVec.eq_of_getLsbD_eq
  intro i hi
  interval_cases i <;> simp [statusWord]

/-- The bits of STATUS that hold no field are 0. -/
theorem statusWord_reserved (s : State) : (statusWord s).extractLsb' 1 3 = 0 ∧
    (statusWord s).extractLsb' 10 6 = 0 ∧ (statusWord s).extractLsb' 24 8 = 0 := by
  refine ⟨?_, ?_, ?_⟩ <;>
  · apply BitVec.eq_of_getLsbD_eq
    intro i hi
    interval_cases i <;> simp [statusWord]

/-- No two codes have the same number (60_exceptions.md R204). -/
theorem ErrorCode.bits_inj {c d : ErrorCode} : c.bits = d.bits ↔ c = d := by
  cases c <;> cases d <;> decide

/-! ### RW, RO and reserved offsets -/

/-- A write of a register that is not RW is ignored (10_state.md R37, R45). -/
theorem writeRegister_readOnly {r : Reg} (h : r.fieldMask = none) (v : Word) (s : State) : writeRegister r v s = s := by
  cases r <;> first | rfl | cases h

theorem Reg.named_of_fieldMask {r : Reg} {mask : Word} (h : r.fieldMask = some mask) : r.named = true := by
  cases r <;> first | rfl | cases h

/-- A named register stands at an aligned offset of the register space (10_state.md R23). -/
theorem Reg.offset_space {r : Reg} (named : r.named = true) : r.offset.toNat < 0x1000 ∧ r.offset.toNat % 4 = 0 := by
  cases r <;> first | decide | cases named

/-- A host write of an RW register at its offset. -/
theorem serve_write_offset {r : Reg} {mask : Word} (isRw : r.fieldMask = some mask) (v : Word) (s : State) :
    serve (.write .w32 r.offset v) s = .next (writeRegister r v s) := by
  have named := Reg.named_of_fieldMask isRw
  obtain ⟨space, aligned⟩ := Reg.offset_space named
  exact serve_register_write v s space aligned (regAt_offset named) (by rintro rfl; cases isRw)

/-- A host read of a named register at its offset. -/
theorem serve_read_offset {r : Reg} (named : r.named = true) (s : State) :
    serve (.read .w32 r.offset) s = .next { s with readData := s.readData ++ [readRegister r s] } := by
  obtain ⟨space, aligned⟩ := Reg.offset_space named
  exact serve_register_read s space aligned (regAt_offset named)

/-- No RW register, and not CMD, stands at 0x004, 0x024 or from 0x02C on. -/
theorem regAt_readOnly {off : Nat} (h : off = 0x004 ∨ off = 0x024 ∨ 0x02C ≤ off) :
    (regAt off).fieldMask = none ∧ regAt off ≠ .cmd := by
  obtain rfl | rfl | h := h
  · exact ⟨rfl, by decide⟩
  · exact ⟨rfl, by decide⟩
  · obtain rfl | above := h.eq_or_lt
    · exact ⟨rfl, by decide⟩
    · by_cases window : 0x400 ≤ off ∧ off ≤ 0x4FC
      · rw [regAt_sbox window.1 window.2]
        exact ⟨rfl, nofun⟩
      · rw [regAt_reserved above (by omega)]
        exact ⟨rfl, nofun⟩

end Sys2Proof.Machine
end

section
/-! PROOFS. The statements of 10_state.md, assembled from the laws of commands, the invariant and the registers. -/

namespace Sys2Proof.Machine

/-- Settles O58: a step waits, or serves one event, and serving keeps the invariant. -/
theorem stepKeepsInvariant : Obligations.StepKeepsInvariant := by
  intro s t h e
  obtain ⟨_, rfl⟩ | ⟨event, rest, _, served⟩ := step_cases e
  · exact h
  · have arrived : (s.setPending rest).Inv := h.congr rfl
    exact arrived.serve served

/-- Settles O28, by the swaps that the key schedule and the keystream are made of. -/
theorem sboxStaysPermutation : Obligations.SboxStaysPermutation := by
  refine ⟨ksa_isPermutation, fun s keyed src dst perm => ?_⟩
  have ok : expectedError .scCrypt s = none := by
    simp [expectedError, keyed, Nat.not_lt.2 src, Nat.not_lt.2 dst]
  refine ⟨_, exec_ok ok, ?_⟩
  rw [commandEffect_scCrypt]
  exact ⟨keystreamAfter_isPermutation _ perm, keystreamAfter_i _ _⟩

/-- Settles O40: a failed command writes the error record and a CHECK's MATCH; the effects' writers are the lemmas
`commandEffect_err` and its like. -/
theorem flagWriters : Obligations.FlagWriters := by
  intro i s t e
  obtain ⟨code, hcode, rfl⟩ | ⟨ok, rfl⟩ := exec_cases e
  · simp only [raiseError_beforeError, hcode]
    -- an error recorded before is kept, and a CHECK has cleared MATCH
    cases s.err <;> cases isCheck i <;> simp
  · refine ⟨fun h => .inr ?_, fun h => .inr ?_, fun h => ?_, fun h => ?_, fun h => ?_⟩
    · rw [commandEffect_err] at h ⊢
      have clears := (ite_ne_right_iff.1 h).1
      exact ⟨if_pos clears, clears⟩
    · rw [commandEffect_errCode, commandEffect_errOp] at h
      exact h.elim (fun h => (ite_ne_right_iff.1 h).1) (fun h => (ite_ne_right_iff.1 h).1)
    · cases check : isCheck i with
      | true => exact .inl rfl
      | false =>
        rw [commandEffect_matched s check] at h ⊢
        have clears := (ite_ne_right_iff.1 h).1
        exact .inr ⟨if_pos clears, clears⟩
    · cases check : isCheck i with
      | true => exact .inr ⟨rfl, ok⟩
      | false =>
        rw [commandEffect_matched s check] at h
        split at h
        · cases h
        · exact .inl h
    · rw [commandEffect_keyed] at h ⊢
      split
      · next sched => exact .inl ⟨rfl, sched, ok⟩
      · next other =>
        rw [if_neg other] at h
        have soft := (ite_ne_right_iff.1 h).1
        exact .inr ⟨if_pos soft, soft⟩

/-- Settles O42: the effects' writers are the lemmas `commandEffect_crc16_writers` and its like; a failed command
writes none of these fields; a host write stores one register's field, or bytes of the BUF window. -/
theorem engineStateWriters : Obligations.EngineStateWriters := by
  refine ⟨fun i s t e => ?_, fun w off v s t notCmd e => ?_⟩
  · obtain ⟨code, _, rfl⟩ | ⟨ok, rfl⟩ := exec_cases e
    · simp [raiseError_beforeError]
    · exact ⟨commandEffect_crc16_writers i s, commandEffect_crc32_writers i s, commandEffect_rxKey_writers i s,
        commandEffect_sbox_writers i s, commandEffect_indices_writers i s, commandEffect_buf_writers i s,
        fun failed => absurd ok failed⟩
  · obtain ⟨_, ⟨_, cmd, _⟩ | ⟨_, _, rfl⟩ | ⟨buffer, rfl⟩ | ⟨_, rfl⟩⟩ := serveWrite_cases e
    · exact absurd (BitVec.eq_of_toNat_eq ((regAt_eq_iff (.inr rfl)).1 cmd)) notCmd
    · have offset {r : Reg} (named : r.named = true) (at_r : regAt off.toNat = r) : off = r.offset :=
        BitVec.eq_of_toNat_eq ((regAt_eq_iff (.inl named)).1 at_r)
      have frame := writeRegister_frame (regAt off.toNat) v s
      refine ⟨by rw [frame], by rw [frame], by rw [frame], fun h => ?_, fun h => ?_, fun h => ?_,
        fun h => absurd (by rw [frame]) h⟩
      · exact offset rfl (by_contra fun ne => h (writeRegister_crc16_of_ne v s ne))
      · exact offset rfl (by_contra fun ne => h (writeRegister_crc32_of_ne v s ne))
      · exact offset rfl (by_contra fun ne => h (writeRegister_rxKey_of_ne v s ne))
    · simp [State.store, regionOf_eq_buffer.1 buffer]
    · simp

/-- Settles O43: a failed command writes none of these fields, and an effect writes an operand only in SRESET. -/
theorem commandsOnlyReadOperands : Obligations.CommandsOnlyReadOperands := by
  intro i s t e
  obtain ⟨code, _, rfl⟩ | ⟨_, rfl⟩ := exec_cases e
  · simp [raiseError_beforeError]
  · exact ⟨commandEffect_operands i s, commandEffect_environment i s⟩

/-- Settles O45, by what a write leaves in each register and what a read of it returns. -/
theorem registerWriteThenRead : Obligations.RegisterWriteThenRead := by
  refine ⟨fun s v => ?_, fun s r off v mask rest row hp => ?_⟩
  · have writes (r : Reg) {mask : Word} (isRw : r.fieldMask = some mask) := serve_write_offset isRw v s
    exact ⟨writes .src rfl, writes .dst rfl, writes .len rfl, writes .keyAddr rfl, writes .keyLen rfl,
      writes .crc16 rfl, writes .crc32 rfl, writes .rxKey rfl⟩
  · obtain ⟨isRw, rfl⟩ : r.fieldMask = some mask ∧ off = r.offset := by fin_cases row <;> exact ⟨rfl, rfl⟩
    have frame := writeRegister_frame r v (s.setPending (.read .w32 r.offset :: rest))
    have value := readRegister_writeRegister_same isRw v (s.setPending (.read .w32 r.offset :: rest))
    have others (q : Reg) (other : q ≠ r) (view : q = .crc32Out → r ≠ .crc32) :=
      readRegister_writeRegister_other v (s.setPending (.read .w32 r.offset :: rest)) other view
    have written := (step_serves hp).trans (serve_write_offset isRw v _)
    generalize writeRegister r v _ = t at frame value others written
    have pending : t.pending = .read .w32 r.offset :: rest := by rw [frame]; rfl
    have readData : t.readData = s.readData := by rw [frame]; rfl
    have delivered := (step_serves pending).trans (serve_read_offset (Reg.named_of_fieldMask isRw) _)
    rw [readRegister_setPending, value] at delivered
    refine ⟨t, _, written, delivered, ?_, fun q other view => ?_⟩
    · rw [← readData]; rfl
    · rw [others q other view, readRegister_setPending]

/-- Settles O46: no RW register and not CMD stands at these offsets. -/
theorem readOnlyRegistersIgnoreWrites : Obligations.ReadOnlyRegistersIgnoreWrites := by
  intro s off v rest range aligned hp
  have space : off.toNat < 0x1000 := by
    obtain rfl | rfl | h := range
    · decide
    · decide
    · omega
  have readOnly := regAt_readOnly (off := off.toNat) (range.imp (congrArg _) (.imp (congrArg _) And.left))
  rw [step_serves hp, serve_register_write v _ space aligned rfl readOnly.2, writeRegister_readOnly readOnly.1]
  rfl

/-- Settles O47, by the register that each offset names. -/
theorem viewsRead : Obligations.ViewsRead := by
  intro s reads
  have named (r : Reg) (h : r.named = true) : reads r.offset (readRegister r s) := serve_read_offset h s
  refine ⟨serve_register_read s (by decide) (by decide) (r := .cmd) rfl, named .status rfl, named .src rfl,
    named .dst rfl, named .len rfl, named .keyAddr rfl, named .keyLen rfl, named .crc16 rfl, named .crc32 rfl,
    named .crc32Out rfl, named .rxKey rfl, ?_, fun m hm => ?_, fun off aligned range => ?_⟩
  · rw [← readRegister_scij]
    exact named .scij rfl
  · have toNat : (BitVec.ofNat 17 (0x400 + 4 * m)).toNat = 0x400 + 4 * m :=
      (BitVec.toNat_ofNat ..).trans (Nat.mod_eq_of_lt (by omega))
    have word := regAt_sbox (off := 0x400 + 4 * m) (by omega) (by omega)
    have index : (BitVec.ofNat 6 ((0x400 + 4 * m - 0x400) / 4)).toNat = m := by
      rw [BitVec.toNat_ofNat]
      omega
    refine ⟨_, serve_register_read s (by omega) (by omega) (by rw [toNat, word]), fun n hn => ?_⟩
    simp only [readRegister, extract_sboxWindow s.sbox _ hn, index]
  · exact serve_register_read s (by omega) aligned (regAt_reserved (by omega) (by omega))

/-- Settles O41, by the fields of the status word. -/
theorem statusWordFields : Obligations.StatusWordFields := by
  intro s
  obtain ⟨low, middle, high⟩ := statusWord_reserved s
  have code (c : ErrorCode) : (statusWord s).extractLsb' 4 4 = c.bits ↔ s.errCode = c := by
    rw [statusWord_errCode, ErrorCode.bits_inj]
  exact ⟨statusWord_err s, low, code .none, code .illegalCmd, code .range, code .badLen, code .badKeyLen,
    code .notKeyed, statusWord_matched s, statusWord_keyed s, middle, statusWord_errOp s, high⟩

/-- Settles O53: the power-on values are the model's by definition; BUF lists nothing, and S is the draw. -/
theorem resetHoldsResetValues : Obligations.ResetHoldsResetValues := by
  have status : readRegister .status State.reset = 0 := by decide
  have crc32Out : readRegister .crc32Out State.reset = 0 := by decide
  have table (k : Byte) : State.reset.sbox.get k = Config.resetS 0 k.toNat := by
    simp [State.reset, State.powerOn, SBox.get]
  exact ⟨rfl, rfl, rfl, rfl, rfl, rfl, rfl, rfl, rfl, rfl, rfl, rfl, rfl, rfl, rfl, status, crc32Out,
    Memory.read_nil 0, table⟩

end Sys2Proof.Machine
end

section
/-! SUPPORT. BUF's bytes under several writes: writes of different bytes in either order, the same write again, and
memories that read the same whichever cells they list. -/

namespace Sys2Proof.Machine

/-! ### Writes in another order, and again -/

/-- Of two writes of one byte the later counts. -/
theorem Memory.write_write_same (m : Memory) (a : Nat) (b c : Byte) : (m.write a b).write a c = m.write a c := by
  induction m with
  | nil => simp [Memory.write]
  | cons cell rest ih =>
    obtain ⟨k, v⟩ := cell
    obtain below | rfl | above := lt_trichotomy a k
    · simp [Memory.write, below]
    · simp [Memory.write]
    · simp [Memory.write, above.not_gt, above.ne', ih]

/-- Writes of two bytes give the same list in either order. -/
theorem Memory.write_comm (m : Memory) {a x : Nat} (b c : Byte) (h : a < x) :
    (m.write x c).write a b = (m.write a b).write x c := by
  induction m with
  | nil => simp [Memory.write, h, h.not_gt, h.ne']
  | cons cell rest ih =>
    obtain ⟨k, v⟩ := cell
    obtain below | rfl | above := lt_trichotomy a k
    · obtain belowX | rfl | aboveX := lt_trichotomy x k
      · simp [Memory.write, below, belowX, h, h.not_gt, h.ne']
      · simp [Memory.write, h, h.not_gt, h.ne']
      · simp [Memory.write, below, aboveX.not_gt, aboveX.ne', h.not_gt, h.ne']
    · simp [Memory.write, h.not_gt, h.ne']
    · have aboveX : k < x := above.trans h
      simp [Memory.write, above.not_gt, above.ne', aboveX.not_gt, aboveX.ne', ih]

theorem Memory.write_writeLE_comm (m : Memory) {x a : Nat} (b : Byte) (n : Nat) (v : Word) (h : x < a) :
    (m.writeLE a n v).write x b = (m.write x b).writeLE a n v := by
  induction n generalizing m a v with
  | zero => rfl
  | succ n ih =>
    simp only [Memory.writeLE]
    rw [ih _ _ (by omega), Memory.write_comm m _ _ h]

/-- The same bytes written again leave the same list, not only the same reads. -/
theorem Memory.writeLE_idempotent (m : Memory) (a n : Nat) (v : Word) :
    (m.writeLE a n v).writeLE a n v = m.writeLE a n v := by
  induction n generalizing m a v with
  | zero => rfl
  | succ n ih =>
    simp only [Memory.writeLE]
    rw [Memory.write_writeLE_comm _ _ _ _ (Nat.lt_succ_self a), Memory.write_write_same, ih]

/-- A read of n bytes has no bit above them. -/
theorem Memory.readLE_lt (m : Memory) (draw a : Nat) {n : Nat} (hn : n ≤ 4) :
    (m.readLE draw a n).toNat < 2 ^ (8 * n) := by
  refine Nat.lt_pow_two_of_testBit _ fun i hi => ?_
  rw [BitVec.testBit_toNat, Memory.getLsbD_readLE _ _ _ _ _ hn, decide_eq_false (by omega), Bool.false_and]

/-! ### Memories that read the same -/

/-- Every address reads the same in both memories, whichever cells they list. -/
def Memory.SameReads (draw : Nat) (m m' : Memory) : Prop := ∀ a, m'.read draw a = m.read draw a

section SameReads
variable {draw : Nat} {m m' : Memory}

theorem Memory.SameReads.readLE (h : Memory.SameReads draw m m') (a n : Nat) :
    m'.readLE draw a n = m.readLE draw a n :=
  Memory.readLE_congr fun x _ _ => h x

theorem Memory.SameReads.write (h : Memory.SameReads draw m m') (a : Nat) (b : Byte) :
    Memory.SameReads draw (m.write a b) (m'.write a b) := by
  intro x
  rw [Memory.read_write, Memory.read_write, h x]

theorem Memory.SameReads.writeLE (h : Memory.SameReads draw m m') (a n : Nat) (v : Word) :
    Memory.SameReads draw (m.writeLE a n v) (m'.writeLE a n v) := by
  intro x
  rw [Memory.read_writeLE, Memory.read_writeLE, h x]

/-- The loop of SC.CRYPT reads each byte before it writes one, and reads the same in both memories. -/
theorem Memory.SameReads.scLoop (h : Memory.SameReads draw m m') (n src dst : Nat) (c : Keystream) :
    Memory.SameReads draw (scLoop draw n src dst m c).1 (scLoop draw n src dst m' c).1 := by
  induction n generalizing src dst m m' c with
  | zero => exact h
  | succ n ih =>
    simp only [Machine.scLoop]
    rw [h src]
    exact ih (h.write _ _) _ _ _

/-- The loop of RX.CRYPT, likewise, word by word. -/
theorem Memory.SameReads.rxLoop (h : Memory.SameReads draw m m') (n src dst : Nat) (key : Word) :
    Memory.SameReads draw (rxLoop draw n src dst m key).1 (rxLoop draw n src dst m' key).1 := by
  induction n generalizing src dst m m' key with
  | zero => exact h
  | succ n ih =>
    simp only [Machine.rxLoop]
    rw [h.readLE src 4]
    exact ih (h.writeLE _ _ _) _ _ _

end SameReads

end Sys2Proof.Machine
end

section
/-! SUPPORT. Commands always answer, and store only in their range. -/

namespace Sys2Proof.Machine

/-- A command answers a next state whether its checks pass or not (60_exceptions.md R207). -/
theorem exec_completes (i : Instr) (s : State) : ∃ t, exec i s = .next t := by
  cases h : expectedError i s with
  | none => exact ⟨_, exec_ok h⟩
  | some code => exact ⟨_, exec_error h⟩

/-- So does the issue of any word, legal or not. -/
theorem issueCommand_completes (v : Word) (s : State) : ∃ t, issueCommand v s = .next t := by
  cases h : decode v with
  | ok i => rw [issueCommand_legal s h]; exact exec_completes i s
  | error e => exact ⟨_, issueCommand_illegal s h⟩

theorem SameOutside.of_buf {s t : State} (buf : t.buf = s.buf) (draw : t.draw = s.draw) (a n : Nat) :
    SameOutside s t a n := by
  intro x _
  rw [State.byte, State.byte, buf, draw]

theorem State.store_sameOutside (s : State) (a n : Nat) (v : Word) : SameOutside s (s.store a n v) a n :=
  fun x outside => (s.byte_store a n x v).trans (if_neg outside)

/-- A command's effect stores only in the range of 20_memory.md R72. -/
theorem commandEffect_sameOutside (i : Instr) (s : State) :
    SameOutside s (commandEffect i s) (storeRange i s).1 (storeRange i s).2 := by
  cases i with
  | crc16Store | crc32Store => exact s.store_sameOutside _ _ _
  | scCrypt =>
    intro x outside
    rw [commandEffect_scCrypt]
    exact scLoop_outside _ _ _ _ _ _ outside
  | rxCrypt =>
    intro x outside
    have words : ¬(s.dstAddr ≤ x ∧ x < s.dstAddr + 4 * (s.length / 4)) := fun inside =>
      outside ⟨inside.1, inside.2.trans_le (Nat.add_le_add_left (Nat.mul_div_le _ _) _)⟩
    rw [commandEffect_rxCrypt]
    exact rxLoop_outside _ _ _ _ _ _ words
  | nop | clrstat | sreset | crc16Init | crc16Update | crc16Check | crc32Init | crc32Update | crc32Check | scSched
  | rxLoadkey => exact SameOutside.of_buf (by simp) (by simp) _ _

end Sys2Proof.Machine
end

section
/-! SUPPORT. The host's accesses: which are admitted, what one in each region does, and the byte lanes. -/

namespace Sys2Proof.Machine

/-! ### Which accesses are admitted (20_memory.md R63, R67) -/

theorem Width.bytes_pos (w : Width) : 0 < w.bytes := by cases w <;> decide

theorem Width.bytes_le (w : Width) : w.bytes ≤ 4 := by cases w <;> decide

/-- An aligned access stays within one 32-bit word of the bus (20_memory.md R62). -/
theorem Width.aligned_fits {w : Width} {off : Nat} (aligned : off % w.bytes = 0) : off % 4 + w.bytes ≤ 4 := by
  cases w <;> simp only [Width.bytes] at aligned ⊢ <;> omega

/-- The lane of each byte of an aligned access is the lane of the byte's own address. -/
theorem Width.lane_of_byte {w : Width} {a k : Nat} (aligned : a % w.bytes = 0) (hk : k < w.bytes) :
    (a + k) % 4 = a % 4 + k := by
  have := Width.aligned_fits aligned
  omega

theorem conformingBufSize_iff {n : Nat} :
    Config.conformingBufSize n = true ↔ n % 4 = 0 ∧ 16 ≤ n ∧ n ≤ 65536 := by
  simp [Config.conformingBufSize, and_assoc]

/-- Where BUF_SIZE is a multiple of 4 no region boundary lies within a 32-bit word. -/
theorem regionOf_sameWord {bufSize x y : Nat} (conforming : bufSize % 4 = 0) (word : x / 4 = y / 4) :
    regionOf bufSize x = regionOf bufSize y := by
  have registers : x < 0x1000 ↔ y < 0x1000 := by omega
  have buffer : x < 0x1000 + bufSize ↔ y < 0x1000 + bufSize := by omega
  simp only [regionOf, Config.bufBase, registers, buffer]

/-- An access is admitted when none of the three causes of a refusal applies. -/
theorem refusalOf_eq_none {bufSize off : Nat} {w : Width} : refusalOf bufSize w off = none ↔
    off % w.bytes = 0 ∧ regionOf bufSize off = regionOf bufSize (off + w.bytes - 1) ∧
      (regionOf bufSize off = .registers → w = .w32) := by
  unfold refusalOf
  split_ifs with misaligned crosses narrow
  · exact ⟨nofun, fun ⟨aligned, _⟩ => absurd aligned misaligned⟩
  · exact ⟨nofun, fun ⟨_, same, _⟩ => absurd same crosses⟩
  · exact ⟨nofun, fun ⟨_, _, wide⟩ => absurd (wide narrow.1) narrow.2⟩
  · exact ⟨fun _ => ⟨not_not.1 misaligned, not_not.1 crosses, fun reg => not_not.1 fun thin => narrow ⟨reg, thin⟩⟩,
      fun _ => rfl⟩

/-- With a conforming BUF_SIZE an aligned access crosses no boundary, so that alignment and, in the register space,
the width decide. -/
theorem refusalOf_eq_none_of_conforming {bufSize off : Nat} {w : Width}
    (conforming : Config.conformingBufSize bufSize = true) : refusalOf bufSize w off = none ↔
      off % w.bytes = 0 ∧ (off < 0x1000 → w = .w32) := by
  obtain ⟨multiple, _⟩ := conformingBufSize_iff.1 conforming
  have oneRegion (aligned : off % w.bytes = 0) : regionOf bufSize off = regionOf bufSize (off + w.bytes - 1) := by
    have fits := Width.aligned_fits aligned
    have pos := w.bytes_pos
    exact regionOf_sameWord multiple (by omega)
  rw [refusalOf_eq_none, regionOf_eq_registers]
  exact ⟨fun ⟨aligned, _, wide⟩ => ⟨aligned, wide⟩, fun ⟨aligned, wide⟩ => ⟨aligned, oneRegion aligned, wide⟩⟩

theorem serve_read_refused {w : Width} {off : Offset} {s : State} {r : Refusal}
    (h : refusalOf s.bufSize w off.toNat = some r) : serve (.read w off) s = .refused r := by
  simp [serve, serveRead, h]

theorem serve_write_refused {w : Width} {off : Offset} {s : State} {r : Refusal} (v : Word)
    (h : refusalOf s.bufSize w off.toNat = some r) : serve (.write w off v) s = .refused r := by
  simp [serve, serveWrite, h]

theorem serve_read_admitted {w : Width} {off : Offset} {s : State} (h : refusalOf s.bufSize w off.toNat = none) :
    serve (.read w off) s = .next { s with readData := s.readData ++ [readValue w off.toNat s] } := by
  simp [serve, serveRead, h, deliver, State.setReadData]

theorem serve_write_admitted {w : Width} {off : Offset} {s : State} (v : Word)
    (h : refusalOf s.bufSize w off.toNat = none) : serve (.write w off v) s = writeEffect w off.toNat v s := by
  simp [serve, serveWrite, h]

/-- An admitted write always answers, a CMD write because its command does. -/
theorem writeEffect_completes (w : Width) (off : Nat) (v : Word) (s : State) :
    ∃ t, writeEffect w off v s = .next t := by
  unfold writeEffect
  split
  · split
    · exact issueCommand_completes v s
    · exact ⟨_, rfl⟩
  · exact ⟨_, rfl⟩
  · exact ⟨_, rfl⟩

/-! ### The BUF window -/

section Window
variable {s : State} {w : Width} {a : Nat}

theorem toNat_bufOffset (size : s.bufSize ≤ 65536) (inBuf : a + w.bytes ≤ s.bufSize) :
    (bufOffset a).toNat = 0x1000 + a := by
  have := w.bytes_pos
  exact (BitVec.toNat_ofNat ..).trans (Nat.mod_eq_of_lt (show 0x1000 + a < 2 ^ 17 by omega))

theorem regionOf_window (inBuf : a + w.bytes ≤ s.bufSize) : regionOf s.bufSize (0x1000 + a) = .buffer := by
  have := w.bytes_pos
  exact regionOf_eq_buffer.2 (by omega)

/-- An aligned access to bytes that all lie in BUF is admitted, whatever BUF_SIZE is. -/
theorem refusalOf_window (aligned : a % w.bytes = 0) (inBuf : a + w.bytes ≤ s.bufSize) :
    refusalOf s.bufSize w (0x1000 + a) = none := by
  have first := regionOf_window inBuf
  have last : regionOf s.bufSize (0x1000 + a + w.bytes - 1) = .buffer := by
    have := w.bytes_pos
    exact regionOf_eq_buffer.2 (by omega)
  have base : (0x1000 + a) % w.bytes = 0 := by
    cases w <;> simp only [Width.bytes] at aligned ⊢ <;> omega
  rw [refusalOf_eq_none, first, last]
  exact ⟨base, rfl, nofun⟩

/-- A host write to BUF is a store of the bytes of its width. -/
theorem serve_write_window (size : s.bufSize ≤ 65536) (aligned : a % w.bytes = 0) (inBuf : a + w.bytes ≤ s.bufSize)
    (v : Word) : serve (.write w (bufOffset a) v) s = .next (s.store a w.bytes v) := by
  have offset := toNat_bufOffset size inBuf
  rw [serve_write_admitted v (by rw [offset]; exact refusalOf_window aligned inBuf), offset]
  simp [writeEffect, regionOf_window inBuf, Config.bufBase]

/-- A host read of BUF delivers a load of the bytes of its width. -/
theorem serve_read_window (size : s.bufSize ≤ 65536) (aligned : a % w.bytes = 0) (inBuf : a + w.bytes ≤ s.bufSize) :
    serve (.read w (bufOffset a)) s = .next { s with readData := s.readData ++ [s.load a w.bytes] } := by
  have offset := toNat_bufOffset size inBuf
  rw [serve_read_admitted (by rw [offset]; exact refusalOf_window aligned inBuf), offset]
  simp [readValue, regionOf_window inBuf, Config.bufBase]

end Window

/-- Byte k of a store of n bytes. -/
theorem State.byte_store_inside (s : State) (a : Nat) {n k : Nat} (v : Word) (hk : k < n) :
    (s.store a n v).byte (a + k) = v.extractLsb' (8 * k) 8 := by
  rw [State.byte_store, if_pos (by omega), Nat.add_sub_cancel_left]

/-! ### The same write again (20_memory.md R70) -/

theorem State.store_idempotent (s : State) (a n : Nat) (v : Word) :
    (s.store a n v).store a n v = s.store a n v :=
  congrArg s.setBuf (s.buf.writeLE_idempotent a n v)

theorem writeRegister_idempotent (r : Reg) (v : Word) (s : State) :
    writeRegister r v (writeRegister r v s) = writeRegister r v s := by
  cases r <;> rfl

theorem writeRegister_bufSize (r : Reg) (v : Word) (s : State) : (writeRegister r v s).bufSize = s.bufSize := by
  rw [writeRegister_frame]

/-- CMD stands at offset 0 only (10_state.md R23). -/
theorem regAt_ne_cmd {off : Offset} (h : off ≠ 0) : regAt off.toNat ≠ .cmd :=
  fun cmd => h (BitVec.eq_of_toNat_eq ((regAt_eq_iff (.inr rfl)).1 cmd))

/-- The effect of a write other than a CMD write, done again on the state it left. -/
theorem writeEffect_idempotent {w : Width} {off : Offset} {v : Word} {s t : State} (notCmd : off ≠ 0)
    (h : writeEffect w off.toNat v s = .next t) :
    t.bufSize = s.bufSize ∧ writeEffect w off.toNat v t = .next t := by
  have other := regAt_ne_cmd notCmd
  unfold writeEffect at h ⊢
  cases region : regionOf s.bufSize off.toNat <;> simp only [region, other, if_false] at h <;> cases h
  case registers =>
    simp only [writeRegister_bufSize, region, other, if_false, writeRegister_idempotent, and_self]
  case buffer =>
    refine ⟨rfl, ?_⟩
    rw [show (s.store _ _ v).bufSize = s.bufSize from rfl, region]
    exact congrArg _ (s.store_idempotent _ _ v)
  case unmapped => simp only [region, and_self]

/-! ### The byte lanes (20_memory.md R62) -/

theorem getLsbD_valueMask (w : Width) {i : Nat} (hi : i < 32) :
    (BitVec.ofNat 32 (2 ^ (8 * w.bytes) - 1)).getLsbD i = decide (i < 8 * w.bytes) := by
  rw [BitVec.getLsbD_ofNat, Nat.testBit_two_pow_sub_one, decide_eq_true hi, Bool.true_and]

/-- The bits of the bus, whether the access is aligned or not. -/
theorem getLsbD_toLanes (w : Width) (off : Offset) (v : Word) {i : Nat} (hi : i < 32) :
    (toLanes w off v).getLsbD i =
      if 8 * (off.toNat % 4) ≤ i ∧ i < 8 * (off.toNat % 4) + 8 * w.bytes then v.getLsbD (i - 8 * (off.toNat % 4))
      else false := by
  rw [toLanes, BitVec.getLsbD_shiftLeft, BitVec.getLsbD_and, getLsbD_valueMask w (by omega)]
  by_cases below : i < 8 * (off.toNat % 4)
  · rw [if_neg (by omega)]
    simp [below]
  · by_cases above : i < 8 * (off.toNat % 4) + 8 * w.bytes
    · rw [if_pos (by omega)]
      simp [hi, below, show i - 8 * (off.toNat % 4) < 8 * w.bytes by omega]
    · rw [if_neg (by omega)]
      simp [show ¬ i - 8 * (off.toNat % 4) < 8 * w.bytes by omega]

theorem getLsbD_fromLanes (w : Width) (off : Offset) (bus : Word) {i : Nat} (hi : i < 32) :
    (fromLanes w off bus).getLsbD i =
      if i < 8 * w.bytes then bus.getLsbD (8 * (off.toNat % 4) + i) else false := by
  rw [fromLanes, BitVec.getLsbD_and, BitVec.getLsbD_ushiftRight, getLsbD_valueMask w hi]
  split <;> simp [*]

/-- A value put on the lanes and taken off them again is its low bits. -/
theorem toNat_fromLanes_toLanes (w : Width) {off : Offset} (v : Word) (aligned : off.toNat % w.bytes = 0) :
    (fromLanes w off (toLanes w off v)).toNat = v.toNat % 2 ^ (8 * w.bytes) := by
  have fits := Width.aligned_fits aligned
  refine Nat.eq_of_testBit_eq fun i => ?_
  rw [Nat.testBit_mod_two_pow, BitVec.testBit_toNat, BitVec.testBit_toNat]
  by_cases used : i < 8 * w.bytes
  · rw [getLsbD_fromLanes w off _ (by omega), if_pos used, getLsbD_toLanes w off v (by omega), if_pos (by omega),
      Nat.add_sub_cancel_left, decide_eq_true used, Bool.true_and]
  · rw [decide_eq_false used, Bool.false_and]
    by_cases hi : i < 32
    · rw [getLsbD_fromLanes w off _ hi, if_neg used]
    · exact BitVec.getLsbD_of_ge _ _ (by omega)

/-- Byte k of a value taken off the bus came on lane `off mod 4 + k`. -/
theorem extract_fromLanes {w : Width} {off : Offset} (bus : Word) {k : Nat} (aligned : off.toNat % w.bytes = 0)
    (hk : k < w.bytes) :
    (fromLanes w off bus).extractLsb' (8 * k) 8 = bus.extractLsb' (8 * (off.toNat % 4 + k)) 8 := by
  have fits := Width.aligned_fits aligned
  apply BitVec.eq_of_getLsbD_eq
  intro i hi
  rw [BitVec.getLsbD_extractLsb', BitVec.getLsbD_extractLsb', getLsbD_fromLanes w off bus (by omega),
    if_pos (by omega), Nat.mul_add, Nat.add_assoc]

/-- Byte k of a value goes out on lane `off mod 4 + k`. -/
theorem extract_toLanes {w : Width} {off : Offset} (v : Word) {k : Nat} (aligned : off.toNat % w.bytes = 0)
    (hk : k < w.bytes) :
    (toLanes w off v).extractLsb' (8 * (off.toNat % 4 + k)) 8 = v.extractLsb' (8 * k) 8 := by
  have fits := Width.aligned_fits aligned
  apply BitVec.eq_of_getLsbD_eq
  intro i hi
  rw [BitVec.getLsbD_extractLsb', BitVec.getLsbD_extractLsb', getLsbD_toLanes w off v (by omega), if_pos (by omega),
    show 8 * (off.toNat % 4 + k) + i - 8 * (off.toNat % 4) = 8 * k + i by omega]

/-- The lane of BUF[a] is that of a: the window's base is a multiple of 4. -/
theorem lane_bufOffset {a k : Nat} {s : State} {w : Width} (size : s.bufSize ≤ 65536) (aligned : a % w.bytes = 0)
    (inBuf : a + w.bytes ≤ s.bufSize) (hk : k < w.bytes) :
    (bufOffset a).toNat % w.bytes = 0 ∧ (bufOffset a).toNat % 4 + k = (a + k) % 4 := by
  have admitted := (refusalOf_eq_none.1 (refusalOf_window aligned inBuf)).1
  have lane := Width.lane_of_byte aligned hk
  rw [toNat_bufOffset size inBuf]
  exact ⟨admitted, by omega⟩

end Sys2Proof.Machine
end

section
/-! SUPPORT. States that differ only in which cells BUF lists: every operation answers alike. -/

namespace Sys2Proof.Machine

theorem ReadsAlike.refl (s : State) : ReadsAlike s s := ⟨rfl, fun _ => rfl⟩

/-- States that read alike differ in a memory that reads the same. -/
theorem readsAlike_iff {s t : State} :
    ReadsAlike s t ↔ ∃ m, t = s.setBuf m ∧ Memory.SameReads s.draw s.buf m := by
  constructor
  · rintro ⟨e, reads⟩
    have draw : t.draw = s.draw := by rw [e]
    exact ⟨t.buf, e, fun a => by simpa [State.byte, draw] using reads a⟩
  · rintro ⟨m, rfl, reads⟩
    exact ⟨rfl, reads⟩

section Alike
variable {s : State} {m : Memory} (alike : Memory.SameReads s.draw s.buf m)
include alike

theorem byte_setBuf (a : Nat) : (s.setBuf m).byte a = s.byte a := alike a

theorem bytes_setBuf (a n : Nat) : (s.setBuf m).bytes a n = s.bytes a n :=
  List.map_congr_left fun k _ => alike (a + k)

theorem load_setBuf (a n : Nat) : (s.setBuf m).load a n = s.load a n := alike.readLE a n

theorem store_setBuf (a n : Nat) (v : Word) : ReadsAlike (s.store a n v) ((s.setBuf m).store a n v) :=
  ⟨rfl, alike.writeLE a n v⟩

/-- What a command computes it computes from bytes that it reads, and so alike. -/
theorem commandEffect_setBuf (i : Instr) : ReadsAlike (commandEffect i s) (commandEffect i (s.setBuf m)) := by
  cases i with
  | nop | clrstat | crc16Init | crc32Init => exact ⟨rfl, alike⟩
  | sreset =>
    rw [commandEffect_sreset, commandEffect_sreset]
    exact ⟨rfl, alike⟩
  | crc16Update | crc16Check | crc32Update | crc32Check | scSched | rxLoadkey =>
    refine ⟨?_, alike⟩
    simp only [commandEffect_crc16Update, commandEffect_crc16Check, commandEffect_crc32Update,
      commandEffect_crc32Check, commandEffect_scSched, commandEffect_rxLoadkey, State.keyBytes, byte_setBuf alike,
      bytes_setBuf alike, load_setBuf alike]
    rfl
  | crc16Store | crc32Store => exact store_setBuf alike _ _ _
  | scCrypt =>
    rw [commandEffect_scCrypt, commandEffect_scCrypt]
    exact ⟨rfl, alike.scLoop _ _ _ _⟩
  | rxCrypt =>
    rw [commandEffect_rxCrypt, commandEffect_rxCrypt]
    exact ⟨rfl, alike.rxLoop _ _ _ _⟩

theorem exec_setBuf (i : Instr) : ResultsAlike (exec i s) (exec i (s.setBuf m)) := by
  have sameChecks : expectedError i (s.setBuf m) = expectedError i s := by cases i <;> rfl
  cases h : expectedError i s with
  | none =>
    rw [exec_ok h, exec_ok (sameChecks.trans h)]
    exact commandEffect_setBuf alike i
  | some code =>
    rw [exec_error h, exec_error (sameChecks.trans h), raiseError_beforeError, raiseError_beforeError]
    exact ⟨rfl, alike⟩

theorem issueCommand_setBuf (v : Word) : ResultsAlike (issueCommand v s) (issueCommand v (s.setBuf m)) := by
  cases h : decode v with
  | ok i =>
    rw [issueCommand_legal _ h, issueCommand_legal _ h]
    exact exec_setBuf alike i
  | error e =>
    rw [issueCommand_illegal _ h, issueCommand_illegal _ h, raiseError_eq, raiseError_eq]
    exact ⟨rfl, alike⟩

theorem readValue_setBuf (w : Width) (off : Nat) : readValue w off (s.setBuf m) = readValue w off s := by
  have register (r : Reg) : readRegister r (s.setBuf m) = readRegister r s := by cases r <;> rfl
  simp only [readValue, register, load_setBuf alike, State.setBuf_bufSize]

theorem writeEffect_setBuf (w : Width) (off : Nat) (v : Word) :
    ResultsAlike (writeEffect w off v s) (writeEffect w off v (s.setBuf m)) := by
  unfold writeEffect
  rw [State.setBuf_bufSize]
  cases regionOf s.bufSize off with
  | registers =>
    by_cases cmd : regAt off = .cmd
    · simp only [if_pos cmd]
      exact issueCommand_setBuf alike v
    · simp only [if_neg cmd]
      cases regAt off <;> exact ⟨rfl, alike⟩
  | buffer => exact store_setBuf alike _ _ _
  | unmapped => exact ⟨rfl, alike⟩

theorem serve_setBuf (e : BusEvent) : ResultsAlike (serve e s) (serve e (s.setBuf m)) := by
  cases e with
  | read w off =>
    cases h : refusalOf s.bufSize w off.toNat with
    | none =>
      rw [serve_read_admitted h, serve_read_admitted (s := s.setBuf m) h, readValue_setBuf alike]
      exact ⟨rfl, alike⟩
    | some r =>
      rw [serve_read_refused h, serve_read_refused (s := s.setBuf m) h]
      exact rfl
  | write w off v =>
    cases h : refusalOf s.bufSize w off.toNat with
    | none =>
      rw [serve_write_admitted v h, serve_write_admitted v (s := s.setBuf m) h]
      exact writeEffect_setBuf alike w off.toNat v
    | some r =>
      rw [serve_write_refused v h, serve_write_refused v (s := s.setBuf m) h]
      exact rfl
  | reset => exact ReadsAlike.refl (powerOnReset s)

end Alike

end Sys2Proof.Machine
end

section
/-! PROOFS. The statements of 20_memory.md, assembled from the laws of BUF's bytes, of commands and of the bus. -/

namespace Sys2Proof.Machine

/-- Settles O60: a step waits, or serves one event, and serving sees BUF only through its reads. -/
theorem onlyReadsOfBufMatter : Obligations.OnlyReadsOfBufMatter := by
  intro s t h
  obtain ⟨m, rfl, alike⟩ := readsAlike_iff.1 h
  cases hp : s.pending with
  | nil => rw [step_idle hp, step_idle (s := s.setBuf m) hp]; exact h
  | cons e rest =>
    rw [step_serves hp, step_serves (s := s.setBuf m) hp]
    exact serve_setBuf (s := s.setPending rest) alike e

/-- Settles O44: an effect stores in its range, and a failed command writes no field that a byte is read from. -/
theorem commandsStoreOnlyTheirRange : Obligations.CommandsStoreOnlyTheirRange := by
  intro i s t e
  obtain ⟨code, _, rfl⟩ | ⟨ok, rfl⟩ := exec_cases e
  · have same (a : Nat) : (raiseError code i.opcode (beforeError i s)).byte a = s.byte a := by
      rw [raiseError_beforeError]; rfl
    exact ⟨fun a _ => same a, fun _ => same⟩
  · exact ⟨commandEffect_sameOutside i s, fun failed => absurd ok failed⟩

/-- Settles O48: an access that is not refused always answers. -/
theorem refusedAccessesAreExactlyThese : Obligations.RefusedAccessesAreExactlyThese := by
  intro s w off rest conforming arrived
  rw [← refusalOf_eq_none_of_conforming conforming]
  refine ⟨fun admitted => ?_, fun refused => ?_⟩
  · obtain hp | ⟨v, hp⟩ := arrived
    · exact ⟨_, (step_serves hp).trans (serve_read_admitted admitted)⟩
    · rw [step_serves hp, serve_write_admitted v (s := s.setPending rest) admitted]
      exact writeEffect_completes w off.toNat v _
  · obtain ⟨r, hr⟩ := Option.ne_none_iff_exists'.1 refused
    obtain hp | ⟨v, hp⟩ := arrived
    · exact ⟨r, (step_serves hp).trans (serve_read_refused hr)⟩
    · exact ⟨r, (step_serves hp).trans (serve_write_refused v hr)⟩

/-- Settles O49: a write's effect keeps BUF_SIZE, so the same write is admitted again, and its effect is idempotent. -/
theorem readsAndWritesHaveNoSideEffects : Obligations.ReadsAndWritesHaveNoSideEffects := by
  refine ⟨fun w off s t e => ?_, fun w off v s t notCmd e => ?_⟩
  · obtain ⟨_, rfl⟩ := serveRead_cases e
    exact ⟨rfl, _, rfl⟩
  · obtain ⟨admitted, _⟩ := serveWrite_cases e
    rw [serve_write_admitted v admitted] at e
    obtain ⟨size, again⟩ := writeEffect_idempotent notCmd e
    rw [serve_write_admitted v (size ▸ admitted)]
    exact again

/-- Settles O50: a host access to BUF is a store or a load at its address. -/
theorem bufWindowIsLittleEndian : Obligations.BufWindowIsLittleEndian := by
  intro s w a v rest size aligned inBuf
  refine ⟨fun hp => ?_, fun hp => ?_⟩
  · have written := (step_serves hp).trans (serve_write_window (s := s.setPending rest) size aligned inBuf v)
    exact ⟨_, written, rfl, fun k hk => State.byte_store_inside _ a v hk, State.store_sameOutside _ _ _ v⟩
  · have delivered := (step_serves hp).trans (serve_read_window (s := s.setPending rest) size aligned inBuf)
    exact ⟨_, delivered, fun k hk => Memory.extract_readLE _ _ _ _ _ w.bytes_le hk,
      Memory.readLE_lt _ _ _ w.bytes_le⟩

/-- Settles O51: an aligned access past BUF is admitted, and its region is the unmapped one. -/
theorem unmappedReadsZeroIgnoresWrites : Obligations.UnmappedReadsZeroIgnoresWrites := by
  intro s w off v rest conforming past aligned
  have region : regionOf s.bufSize off.toNat = .unmapped := regionOf_eq_unmapped.2 past
  have admitted : refusalOf s.bufSize w off.toNat = none :=
    (refusalOf_eq_none_of_conforming conforming).2 ⟨aligned, fun below => by omega⟩
  refine ⟨fun hp => ?_, fun hp => ?_⟩
  · rw [step_serves hp, serve_read_admitted (s := s.setPending rest) admitted]
    simp [readValue, region, State.setPending]
  · rw [step_serves hp, serve_write_admitted v (s := s.setPending rest) admitted]
    simp [writeEffect, region, State.setPending]

/-- Settles O52: the bits of the lanes, and for BUF that the lane of a byte is its address mod 4. -/
theorem byteLanesCarryTheValue : Obligations.ByteLanesCarryTheValue := by
  refine ⟨fun w off v i _ hi => getLsbD_toLanes w off v hi, fun w off bus i _ hi => getLsbD_fromLanes w off bus hi,
    fun w off v aligned => toNat_fromLanes_toLanes w v aligned, fun s w a bus size aligned inBuf => ?_⟩
  refine ⟨⟨_, serve_write_window size aligned inBuf _, fun k hk => ?_⟩,
    ⟨_, serve_read_window size aligned inBuf, fun k hk => ?_⟩⟩
  · obtain ⟨offAligned, lane⟩ := lane_bufOffset size aligned inBuf hk
    rw [State.byte_store_inside s a _ hk, ← lane]
    exact extract_fromLanes bus offAligned hk
  · obtain ⟨offAligned, lane⟩ := lane_bufOffset size aligned inBuf hk
    rw [← lane]
    exact (extract_toLanes _ offAligned hk).trans (Memory.extract_readLE _ _ _ _ _ w.bytes_le hk)

/-- Settles O59: commands and issued words complete, and a reset is a next state by definition. -/
theorem commandsAlwaysComplete : Obligations.CommandsAlwaysComplete := by
  refine ⟨exec_completes, fun s v rest hp => ?_, fun s rest hp => ⟨_, step_serves hp⟩⟩
  rw [step_serves hp, serve_commandWrite]
  exact issueCommand_completes v _

/-- Settles O5, by what a step with nothing pending does. -/
theorem idleBlockWaits : Obligations.IdleBlockWaits := fun _ nothingPending => step_idle nothingPending

end Sys2Proof.Machine
end

section
/-! SUPPORT. The fields of a command word, the opcode map and its inverse, and the decoder (30_encoding.md R90-R96). -/

namespace Sys2Proof

/-! ### The fields of a command word (30_encoding.md R91) -/

theorem opcodeField_toNat (v : Word) : (opcodeField v).toNat = v.toNat % 256 :=
  BitVec.extractLsb'_toNat 0 8 v

theorem reservedField_toNat (v : Word) : (reservedField v).toNat = v.toNat / 256 := by
  have := v.isLt
  rw [reservedField, BitVec.extractLsb'_toNat, Nat.shiftRight_eq_div_pow]
  omega

theorem reservedField_eq_zero_iff (v : Word) : reservedField v = 0 ↔ v.toNat / 256 = 0 := by
  rw [BitVec.toNat_eq, reservedField_toNat]; rfl

/-- A word is an opcode zero-extended when its reserved bits are 0 and its OPC is that opcode. -/
theorem eq_zeroExtend_iff (v : Word) (opc : Byte) :
    v = opc.zeroExtend 32 ↔ reservedField v = 0 ∧ opcodeField v = opc := by
  have := opc.isLt
  have word : v = opc.zeroExtend 32 ↔ v.toNat = opc.toNat := by
    rw [BitVec.toNat_eq, BitVec.zeroExtend, BitVec.toNat_setWidth_of_le (by decide)]
  rw [word, reservedField_eq_zero_iff, BitVec.toNat_eq (x := opcodeField v), opcodeField_toNat]
  omega

/-! ### The opcode map (30_encoding.md R93, R94) -/

/-- The numbers that R94 leaves without a command, as opcodes. -/
def UnmappedOpcode (opc : Nat) : Prop :=
  opc = 0 ∨ (0x03 ≤ opc ∧ opc ≤ 0x0E) ∨ (0x14 ≤ opc ∧ opc ≤ 0x1F) ∨ (0x24 ≤ opc ∧ opc ≤ 0x2F) ∨
    (0x32 ≤ opc ∧ opc ≤ 0x3F) ∨ 0x42 ≤ opc

/-- OPCODE_MAP is the inverse of the commands' opcodes. -/
theorem opcodeMap_eq_some_iff {opc : Byte} {i : Instr} : opcodeMap opc = some i ↔ opc = i.opcode := by
  constructor
  · intro mapped
    unfold opcodeMap at mapped
    split at mapped
    case h_16 => cases mapped
    all_goals
      next row =>
      cases mapped
      exact BitVec.eq_of_toNat_eq row
  · rintro rfl
    cases i <;> rfl

theorem opcodeMap_eq_none_iff {opc : Byte} : opcodeMap opc = none ↔ UnmappedOpcode opc.toNat := by
  unfold opcodeMap UnmappedOpcode
  split
  case h_16 => exact iff_of_true rfl (by grind)
  all_goals
    next row =>
    simp [row]

/-- At most one row of the map has a given opcode. -/
theorem Instr.opcode_injective {i j : Instr} (same : i.opcode = j.opcode) : i = j :=
  Option.some.inj ((opcodeMap_eq_some_iff.2 rfl).symm.trans (opcodeMap_eq_some_iff.2 same))

/-! ### The decoder (30_encoding.md R90, R96) -/

theorem decode_of_reserved {v : Word} (h : reservedField v ≠ 0) : decode v = .error .reservedBits := if_neg h

theorem decode_of_mapped {v : Word} {i : Instr} (reserved : reservedField v = 0)
    (mapped : opcodeMap (opcodeField v) = some i) : decode v = .ok i := by
  simp [decode, reserved, mapped]

theorem decode_of_unmapped {v : Word} (reserved : reservedField v = 0)
    (unmapped : opcodeMap (opcodeField v) = none) : decode v = .error .unknownOpcode := by
  simp [decode, reserved, unmapped]

/-- A word decodes to a command when its reserved bits are 0 and its OPC is in the map. -/
theorem decode_eq_ok_iff_fields {v : Word} {i : Instr} :
    decode v = .ok i ↔ reservedField v = 0 ∧ opcodeMap (opcodeField v) = some i := by
  refine ⟨fun ok => ?_, fun ⟨reserved, mapped⟩ => decode_of_mapped reserved mapped⟩
  by_cases reserved : reservedField v = 0
  · cases mapped : opcodeMap (opcodeField v) with
    | none => rw [decode_of_unmapped reserved mapped] at ok; cases ok
    | some j => rw [decode_of_mapped reserved mapped] at ok; cases ok; exact ⟨reserved, rfl⟩
  · rw [decode_of_reserved reserved] at ok; cases ok

/-- The decoder is the inverse of the encoder. -/
theorem decode_eq_ok_iff {v : Word} {i : Instr} : decode v = .ok i ↔ v = encode i := by
  rw [decode_eq_ok_iff_fields, opcodeMap_eq_some_iff, encode, eq_zeroExtend_iff]

theorem decode_encode (i : Instr) : decode (encode i) = .ok i := decode_eq_ok_iff.2 rfl

theorem encode_injective {i j : Instr} (same : encode i = encode j) : i = j :=
  Except.ok.inj ((decode_encode i).symm.trans (decode_eq_ok_iff.2 same))

/-- The words outside the opcode map are illegal (30_encoding.md R94). -/
theorem decode_illegal {v : Word} (illegal : v.toNat / 256 ≠ 0 ∨ UnmappedOpcode (v.toNat % 256)) :
    ∃ e, decode v = .error e := by
  by_cases reserved : reservedField v = 0
  · have unmapped := illegal.resolve_left (not_not.2 ((reservedField_eq_zero_iff v).1 reserved))
    rw [← opcodeField_toNat, ← opcodeMap_eq_none_iff] at unmapped
    exact ⟨_, decode_of_unmapped reserved unmapped⟩
  · exact ⟨_, decode_of_reserved reserved⟩

/-- Every other word is a command (30_encoding.md R94). -/
theorem decode_legal {v : Word} (legal : ¬(v.toNat / 256 ≠ 0 ∨ UnmappedOpcode (v.toNat % 256))) :
    ∃ i, decode v = .ok i := by
  obtain ⟨reserved, mapped⟩ := not_or.1 legal
  rw [← opcodeField_toNat, ← opcodeMap_eq_none_iff] at mapped
  obtain ⟨i, hi⟩ := Option.ne_none_iff_exists'.1 mapped
  exact ⟨i, decode_of_mapped ((reservedField_eq_zero_iff v).2 (not_not.1 reserved)) hi⟩

end Sys2Proof
end

section
/-! PROOFS. The statements of 30_encoding.md, assembled from the laws of the decoder and of the bus. -/

namespace Sys2Proof.Machine

/-- A step on a CMD write issues its word, once the write has left what is pending. -/
theorem step_commandWrite {s : State} {v : Word} {rest : List BusEvent} (hp : s.pending = commandWrite v :: rest) :
    step s = issueCommand v (s.setPending rest) := by
  rw [step_serves hp, serve_commandWrite]

/-- Settles O2: the decoder is the inverse of the encoder, whose words are the opcodes by definition. -/
theorem decodeEncodeAgree : Obligations.DecodeEncodeAgree :=
  ⟨fun _ => rfl, fun _ _ _ => decode_eq_ok_iff, fun _ _ => encode_injective⟩

/-- Settles O3: an illegal word decodes to an error, whose issue records it; every other word decodes. -/
theorem illegalWordsRecordIllegalCmd : Obligations.IllegalWordsRecordIllegalCmd := by
  intro s v rest hp
  refine ⟨fun illegal => ?_, fun legal => ?_⟩
  · obtain ⟨e, he⟩ := decode_illegal illegal
    rw [step_commandWrite hp, issueCommand_illegal _ he, raiseError_eq]
    rfl
  · obtain ⟨i, hi⟩ := decode_legal legal
    exact ⟨i, hi, decode_eq_ok_iff.1 hi⟩

/-- Settles O1: each of the six words is its command's opcode with 24 reserved zero bits above it. -/
theorem specWordsDecode : Obligations.SpecWordsDecode :=
  ⟨decode_encode .nop, decode_encode .sreset, decode_encode .crc16Update, decode_encode .crc32Store,
    decode_encode .scSched, decode_encode .rxCrypt⟩

/-- Settles O4: the step issues the word, and the issue of a word that decodes is exec of its command. -/
theorem stepRunsDecodedCommand : Obligations.StepRunsDecodedCommand := by
  intro s v i rest hp decodes _
  rw [step_commandWrite hp, issueCommand_legal _ decodes]
  rfl

end Sys2Proof.Machine
end

section
/-! PROOFS. The statements of 40_control.md: a control command makes no check, so it completes with its effect. -/

namespace Sys2Proof.Machine

/-- Settles O6: NOP's effect is the state itself. -/
theorem nopChangesNothing : Obligations.NopChangesNothing := by
  refine ⟨rfl, fun s => ?_⟩
  have noCheck : expectedError .nop s = none := rfl
  rw [exec_ok noCheck, commandEffect_nop]

/-- Settles O7: CLRSTAT's effect clears the four status fields. -/
theorem clrstatClearsStatus : Obligations.ClrstatClearsStatus := by
  refine ⟨rfl, fun s => ?_⟩
  have noCheck : expectedError .clrstat s = none := rfl
  rw [exec_ok noCheck, commandEffect_clrstat]

/-- Settles O8: SRESET's effect is the SRESET column of 10_state.md R44, which has neither S nor BUF. -/
theorem sresetResetsRegisters : Obligations.SresetResetsRegisters := by
  refine ⟨rfl, fun s => ?_⟩
  have noCheck : expectedError .sreset s = none := rfl
  rw [exec_ok noCheck, commandEffect_sreset]

end Sys2Proof.Machine
end

section
/-! SUPPORT. Commands with one range check, words stored and read back, and the checksum folds over BUF: what the
statements of both checksum engines rest on. -/

namespace Sys2Proof.Machine

/-! ### A command whose one check is a range of BUF (60_exceptions.md R203) -/

section OneRange
variable {i : Instr} {s : State} {a n : Nat}

theorem exec_inRange (check : commandChecks i s = [(s.outOfRange a n, .range)]) (inBuf : a + n ≤ s.bufSize) :
    exec i s = .next (commandEffect i s) := by
  apply exec_ok
  rw [← firstError_commandChecks, check]
  simp [(s.inRange_iff a n).2 inBuf]

theorem exec_outOfRange (check : commandChecks i s = [(s.outOfRange a n, .range)]) (beyond : s.bufSize < a + n) :
    exec i s = .next (raiseError .range i.opcode (beforeError i s)) := by
  apply exec_error
  rw [← firstError_commandChecks, check]
  simp [(s.outOfRange_iff a n).2 beyond]

end OneRange

/-! ### A word in BUF is its bytes, low byte first (00_scope.md R9) -/

/-- A read of n bytes answers v exactly where each byte read is the byte of v. -/
theorem State.load_eq_iff (s : State) (a : Nat) {n : Nat} {v : Word} (hn : n ≤ 4) (hv : v.toNat < 2 ^ (8 * n)) :
    s.load a n = v ↔ ∀ k, k < n → s.byte (a + k) = v.extractLsb' (8 * k) 8 := by
  constructor
  · rintro rfl k hk
    exact (Memory.extract_readLE _ _ _ _ _ hn hk).symm
  · intro bytes
    apply BitVec.eq_of_getLsbD_eq
    intro i _
    rw [State.load, Memory.getLsbD_readLE _ _ _ _ _ hn]
    by_cases inside : i < 8 * n
    · have byte := congrArg (BitVec.getLsbD · (i % 8)) (bytes (i / 8) (by omega))
      simp only [State.byte, BitVec.getLsbD_extractLsb', Nat.div_add_mod, Nat.mod_lt i (by decide : 0 < 8),
        decide_true, Bool.true_and] at byte
      simp [inside, byte]
    · have small : v.toNat < 2 ^ i := hv.trans_le (Nat.pow_le_pow_right (by decide) (by omega))
      simp [inside, BitVec.getLsbD, Nat.testBit_lt_two_pow small]

/-- A read where a word was stored answers the word. -/
theorem State.load_store (s : State) (a : Nat) {n : Nat} {v : Word} (hn : n ≤ 4) (hv : v.toNat < 2 ^ (8 * n)) :
    (s.store a n v).load a n = v :=
  (State.load_eq_iff _ a hn hv).2 fun _ hk => s.byte_store_inside a v hk

theorem toNat_zeroExtend_half_lt (c : Half) : (c.zeroExtend 32).toNat < 2 ^ (8 * 2) := by
  rw [BitVec.zeroExtend_eq_setWidth, BitVec.toNat_setWidth_of_le (by decide)]
  exact c.isLt

theorem extract_zeroExtend_half (c : Half) (k : Nat) : (c.zeroExtend 32).extractLsb' k 8 = c.extractLsb' k 8 := by
  apply BitVec.eq_of_getLsbD_eq
  intro i _
  by_cases inside : k + i < 32
  · simp [inside]
  · simp [inside, BitVec.getLsbD_of_ge c (k + i) (by omega)]

/-! ### The bytes of adjoining ranges -/

/-- The address at which a second range goes on, in the 16-bit arithmetic of SRC. It wraps only where the first range
ends at 65536 and the second is empty. -/
theorem State.bytes_adjoining (s : State) {a n m : Half} (inBuf : a.toNat + n.toNat + m.toNat ≤ 65536) :
    s.bytes a.toNat (n.toNat + m.toNat) = s.bytes a.toNat n.toNat ++ s.bytes (a + n).toNat m.toNat := by
  rw [State.bytes_append]
  by_cases empty : m.toNat = 0
  · simp [empty, State.bytes]
  · rw [BitVec.toNat_add_of_lt (by omega)]

/-! ### Two UPDATEs over adjoining ranges (41_crc16.md R126, 42_crc32.md R146) -/

/-- Two UPDATEs and the one UPDATE over both ranges pass their checks, so they chain where their effects do. -/
theorem updates_chain {i : Instr} {s : State} {n m : Half}
    (update : ∀ t, commandChecks i t = [(t.outOfRange t.srcAddr t.length, .range)])
    (short : n.toNat + m.toNat < 65536) (inBuf : s.src.toNat + n.toNat + m.toNat ≤ s.bufSize)
    (effects : commandEffect i { commandEffect i { s with len := n } with src := s.src + n, len := m } =
      { commandEffect i { s with len := n + m } with src := s.src + n, len := m }) :
    ∃ t u w, exec i { s with len := n } = .next t ∧ exec i { t with src := s.src + n, len := m } = .next u ∧
      exec i { s with len := n + m } = .next w ∧ u = { w with src := s.src + n, len := m } := by
  have first : s.src.toNat + n.toNat ≤ s.bufSize := by omega
  have second : (s.src + n).toNat + m.toNat ≤ (commandEffect i { s with len := n }).bufSize := by
    rw [(commandEffect_environment i _).1]
    have wrapped : (s.src + n).toNat ≤ s.src.toNat + n.toNat := (BitVec.toNat_add _ _).trans_le (Nat.mod_le _ _)
    exact (Nat.add_le_add_right wrapped _).trans inBuf
  have both : s.src.toNat + (n + m).toNat ≤ s.bufSize := by rwa [BitVec.toNat_add_of_lt short, ← Nat.add_assoc]
  exact ⟨_, _, _, exec_inRange (update _) first, exec_inRange (update _) second, exec_inRange (update _) both, effects⟩

/-! ### A shift register with feedback is linear (41_crc16.md R120, 42_crc32.md R140) -/

/-- One shift of a checksum register with the reflected polynomial `poly`. -/
def feedbackShift {w : Nat} (poly c : BitVec w) : BitVec w :=
  if c.getLsbD 0 then (c >>> 1) ^^^ poly else c >>> 1

theorem crc16Shift_eq : crc16Shift = feedbackShift 0xA001 := rfl

/-- The bit shifted out of c XOR d is the XOR of the two bits, and where both are 1 the polynomial cancels. -/
theorem feedbackShift_xor {w : Nat} (poly c d : BitVec w) :
    feedbackShift poly (c ^^^ d) = feedbackShift poly c ^^^ feedbackShift poly d := by
  simp only [feedbackShift, BitVec.getLsbD_xor, BitVec.ushiftRight_xor_distrib]
  cases c.getLsbD 0 <;> cases d.getLsbD 0
  · rfl
  · exact BitVec.xor_assoc _ _ _
  · simp only [Bool.xor_false, if_true, Bool.false_eq_true, if_false]
    ac_rfl
  · have cancel : (c >>> 1 ^^^ poly) ^^^ (d >>> 1 ^^^ poly) = (c >>> 1 ^^^ d >>> 1) ^^^ (poly ^^^ poly) := by ac_rfl
    simp [cancel]

theorem feedbackShift_iterate_xor {w : Nat} (poly : BitVec w) (n : Nat) (c d : BitVec w) :
    (feedbackShift poly)^[n] (c ^^^ d) = (feedbackShift poly)^[n] c ^^^ (feedbackShift poly)^[n] d := by
  induction n generalizing c d with
  | zero => rfl
  | succ n ih => simp only [Function.iterate_succ_apply, feedbackShift_xor, ih]

/-! ### The CRC16 commands -/

/-- Linearity of crc16_byte: of its XOR with the byte, then of its eight shifts. -/
theorem crc16Byte_xor (c d : Half) (a b : Byte) : crc16Byte (c ^^^ d) (a ^^^ b) = crc16Byte c a ^^^ crc16Byte d b := by
  have inputs : (c ^^^ d) ^^^ (a ^^^ b).zeroExtend 16 = (c ^^^ a.zeroExtend 16) ^^^ (d ^^^ b.zeroExtend 16) := by
    simp only [BitVec.zeroExtend_eq_setWidth, BitVec.setWidth_xor]
    ac_rfl
  rw [crc16Byte, inputs, crc16Shift_eq, feedbackShift_iterate_xor]
  rfl

/-- The fold over BUF's bytes, byte by byte. -/
theorem crc16Seq_bytes (c : Half) (s : State) (a n : Nat) :
    crc16Seq c (s.bytes a n) = (List.range n).foldl (fun c k => crc16Byte c (s.byte (a + k))) c := List.foldl_map

theorem exec_crc16Init (s : State) : exec .crc16Init s = .next { s with crc16 := 0xFFFF } := exec_ok rfl

theorem exec_crc16Update {s : State} (inBuf : s.srcAddr + s.length ≤ s.bufSize) :
    exec .crc16Update s = .next { s with crc16 := crc16Seq s.crc16 (s.bytes s.srcAddr s.length) } :=
  exec_inRange rfl inBuf

theorem exec_crc16Store {s : State} (inBuf : s.dstAddr + 2 ≤ s.bufSize) :
    exec .crc16Store s = .next (s.store s.dstAddr 2 (s.crc16.zeroExtend 32)) :=
  exec_inRange rfl inBuf

theorem exec_crc16Check {s : State} (inBuf : s.dstAddr + 2 ≤ s.bufSize) :
    exec .crc16Check s = .next { s with matched := s.load s.dstAddr 2 == s.crc16.zeroExtend 32 } :=
  exec_inRange rfl inBuf

/-- The two bytes that a store of a 16-bit value writes, low byte first. -/
theorem State.byte_store_half (s : State) (a : Nat) (c : Half) :
    (s.store a 2 (c.zeroExtend 32)).byte a = c.extractLsb' 0 8 ∧
      (s.store a 2 (c.zeroExtend 32)).byte (a + 1) = c.extractLsb' 8 8 :=
  ⟨(s.byte_store_inside a _ (k := 0) (by decide)).trans (extract_zeroExtend_half c 0),
    (s.byte_store_inside a _ (k := 1) (by decide)).trans (extract_zeroExtend_half c 8)⟩

/-- A 16-bit value is at an address exactly where its low byte is there and its high byte is next. -/
theorem State.load_eq_half_iff (s : State) (a : Nat) (c : Half) :
    s.load a 2 = c.zeroExtend 32 ↔ s.byte a = c.extractLsb' 0 8 ∧ s.byte (a + 1) = c.extractLsb' 8 8 := by
  simp only [s.load_eq_iff a (by decide) (toNat_zeroExtend_half_lt c), Nat.forall_lt_succ_right, Nat.not_lt_zero,
    false_implies, implies_true, true_and, extract_zeroExtend_half, Nat.mul_zero, Nat.mul_one, Nat.add_zero]

end Sys2Proof.Machine
end

section
/-! PROOFS. The statements of 41_crc16.md, and the laws that 42_crc32.md shares with it. -/

namespace Sys2Proof.Machine

/-- Settles O11: linearity is that of the XOR and of the eight shifts; the values are computed. -/
theorem crc16ByteIsLinear : Obligations.Crc16ByteIsLinear :=
  ⟨crc16Byte_xor, by decide, by decide, by decide⟩

/-- Settles O12: the store of the 16-bit register. -/
theorem crc16StoreWritesLittleEndian : Obligations.Crc16StoreWritesLittleEndian := by
  refine ⟨rfl, fun s => ⟨fun inBuf => ?_, fun beyond => exec_outOfRange rfl beyond⟩⟩
  obtain ⟨low, high⟩ := s.byte_store_half s.dstAddr s.crc16
  exact ⟨_, exec_crc16Store inBuf, rfl, low, high, s.store_sameOutside _ _ _⟩

/-- Settles O13: the two bytes at DST read as the register exactly where they are its bytes. -/
theorem crc16CheckComparesLittleEndian : Obligations.Crc16CheckComparesLittleEndian := by
  refine ⟨rfl, fun s => ⟨fun inBuf => ?_, fun beyond => exec_outOfRange rfl beyond⟩⟩
  rw [exec_crc16Check inBuf, Bool.beq_eq_decide_eq]
  simp only [State.load_eq_half_iff]

/-- Settles O19: the fold over the bytes of both ranges is the fold over the first and then over the second. -/
theorem checksumUpdatesChain : Obligations.ChecksumUpdatesChain := by
  intro s n m size short inBuf
  have bytes := s.bytes_adjoining (inBuf.trans size)
  rw [← BitVec.toNat_add_of_lt short] at bytes
  constructor
  · refine updates_chain (fun _ => rfl) short inBuf ?_
    have fold := (congrArg (crc16Seq s.crc16) bytes).trans (crc16Seq_append _ _ _)
    exact congrArg (fun c => { s with src := s.src + n, len := m, crc16 := c }) fold.symm
  · refine updates_chain (fun _ => rfl) short inBuf ?_
    have fold := (congrArg (crc32Seq s.crc32) bytes).trans (crc32Seq_append _ _ _)
    exact congrArg (fun c => { s with src := s.src + n, len := m, crc32 := c }) fold.symm

/-- Settles O20: neither INIT nor UPDATE writes BUF, so UPDATE reads the bytes of the first state. -/
theorem crc16OfSequenceIsStored : Obligations.Crc16OfSequenceIsStored := by
  intro s d source dest
  have stored (c : Half) := State.byte_store_half { s with crc16 := c, dst := d } d.toNat c
  have frame (c : Half) := State.store_sameOutside { s with crc16 := c, dst := d } d.toNat 2 (c.zeroExtend 32)
  exact ⟨_, _, _, exec_crc16Init s, exec_crc16Update source, exec_crc16Store dest, rfl, (stored _).1, (stored _).2,
    frame _⟩

/-- Settles O23: CHECK loads what STORE stored. -/
theorem checkAfterStoreMatches : Obligations.CheckAfterStoreMatches := by
  intro s
  constructor
  · intro inBuf
    have same := s.load_store s.dstAddr (by decide) (toNat_zeroExtend_half_lt s.crc16)
    exact ⟨_, _, exec_crc16Store inBuf, exec_crc16Check inBuf,
      congrArg (State.setMatched _) (beq_iff_eq.2 same)⟩
  · intro inBuf
    have same := s.load_store s.dstAddr (n := 4) (by decide) (crc32Final s.crc32).isLt
    exact ⟨_, _, exec_inRange rfl inBuf, exec_inRange rfl inBuf,
      congrArg (State.setMatched _) (beq_iff_eq.2 same)⟩

/-- Settles O9: INIT makes no check, and the host write stores its low 16 bits. -/
theorem crc16InitSetsRegister : Obligations.Crc16InitSetsRegister := by
  refine ⟨rfl, fun s => ⟨exec_crc16Init s, ?_, fun already => ?_, rfl⟩⟩
  · exact serve_write_offset (r := .crc16) rfl 0x0000FFFF s
  · rw [exec_crc16Init, ← already]

/-- Settles O10: the fold of UPDATE, address by address. -/
theorem crc16UpdateFoldsBytes : Obligations.Crc16UpdateFoldsBytes := by
  refine ⟨rfl, fun s => ⟨fun inBuf => ?_, fun beyond => exec_outOfRange rfl beyond⟩⟩
  rw [exec_crc16Update inBuf, crc16Seq_bytes]

end Sys2Proof.Machine
end

section
/-! SUPPORT. The CRC32 commands where their range check passes, crc32_byte and its fold over BUF, and runs of equal bytes
and sums of addresses in BUF. -/

namespace Sys2Proof.Machine

/-! ### Ranges of BUF -/

/-- Where n bytes from an address are all b, reading them gives n times b. -/
theorem State.bytes_eq_replicate {s : State} {a n : Nat} {b : Byte} (all : ∀ k, k < n → s.byte (a + k) = b) :
    s.bytes a n = List.replicate n b := by
  refine List.eq_replicate_iff.2 ⟨s.length_bytes a n, fun x hx => ?_⟩
  obtain ⟨k, hk, rfl⟩ := List.mem_map.1 hx
  exact all k (List.mem_range.1 hk)

/-- The 16-bit sum of two addresses may wrap, and is never above their sum. -/
theorem toNat_add_le_add (a b : Half) : (a + b).toNat ≤ a.toNat + b.toNat :=
  (BitVec.toNat_add a b).trans_le (Nat.mod_le _ _)

/-- The bytes from a 16-bit sum of addresses: where the sum wraps, there is no byte to read. -/
theorem State.bytes_add (s : State) {a n m : Half} (inBuf : a.toNat + n.toNat + m.toNat ≤ 65536) :
    s.bytes (a + n).toNat m.toNat = s.bytes (a.toNat + n.toNat) m.toNat :=
  List.append_cancel_left ((s.bytes_adjoining inBuf).symm.trans (s.bytes_append a.toNat n.toNat m.toNat))

/-! ### The CRC32 commands -/

theorem crc32Shift_eq : crc32Shift = feedbackShift 0xEDB88320 := rfl

/-- Linearity of crc32_byte: of its XOR with the byte, then of its eight shifts. -/
theorem crc32Byte_xor (c d : Word) (a b : Byte) :
    crc32Byte (c ^^^ d) (a ^^^ b) = crc32Byte c a ^^^ crc32Byte d b := by
  simp only [crc32Byte, crc32Shift_eq, BitVec.zeroExtend_eq_setWidth, BitVec.setWidth_xor, feedbackShift_iterate_xor]
  ac_rfl

/-- The register after four zero bytes (42_crc32.md R142, corner case), shift by shift. -/
theorem crc32Seq_fourZeros : crc32Seq 0xFFFFFFFF [0, 0, 0, 0] = 0xDEBB20E3 := by
  simp [crc32Seq, crc32Byte, crc32Shift]

/-- The CRC-32 of the empty sequence (42_crc32.md R141, corner case). -/
theorem crc32Value_nil : crc32Value [] = 0 := by decide

/-- The fold over BUF's bytes, byte by byte. -/
theorem crc32Seq_bytes (c : Word) (s : State) (a n : Nat) :
    crc32Seq c (s.bytes a n) = (List.range n).foldl (fun c k => crc32Byte c (s.byte (a + k))) c := List.foldl_map

theorem exec_crc32Init (s : State) : exec .crc32Init s = .next { s with crc32 := 0xFFFFFFFF } := exec_ok rfl

theorem exec_crc32Update {s : State} (inBuf : s.srcAddr + s.length ≤ s.bufSize) :
    exec .crc32Update s = .next { s with crc32 := crc32Seq s.crc32 (s.bytes s.srcAddr s.length) } :=
  exec_inRange rfl inBuf

theorem exec_crc32Store {s : State} (inBuf : s.dstAddr + 4 ≤ s.bufSize) :
    exec .crc32Store s = .next (s.store s.dstAddr 4 (crc32Final s.crc32)) :=
  exec_inRange rfl inBuf

theorem exec_crc32Check {s : State} (inBuf : s.dstAddr + 4 ≤ s.bufSize) :
    exec .crc32Check s = .next { s with matched := s.load s.dstAddr 4 == crc32Final s.crc32 } :=
  exec_inRange rfl inBuf

end Sys2Proof.Machine
end

section
/-! PROOFS. The statements of 42_crc32.md. -/

namespace Sys2Proof.Machine

/-- Settles O16: linearity is that of the XOR and of the eight shifts; the values are computed. -/
theorem crc32ByteIsLinear : Obligations.Crc32ByteIsLinear :=
  ⟨crc32Byte_xor, by decide, crc32Seq_fourZeros, by decide⟩

/-- Settles O17: the store of the register after the final XOR. -/
theorem crc32StoreWritesLittleEndian : Obligations.Crc32StoreWritesLittleEndian := by
  refine ⟨rfl, fun s => ⟨fun inBuf => ?_, fun beyond => exec_outOfRange rfl beyond⟩⟩
  exact ⟨_, exec_crc32Store inBuf, rfl, fun _ => s.byte_store_inside _ _, s.store_sameOutside _ _ _⟩

/-- Settles O18: the four bytes at DST read as the value exactly where they are its bytes. -/
theorem crc32CheckComparesLittleEndian : Obligations.Crc32CheckComparesLittleEndian := by
  refine ⟨rfl, fun s => ⟨fun inBuf => ?_, fun beyond => exec_outOfRange rfl beyond⟩⟩
  exact ⟨_, exec_crc32Check inBuf, beq_iff_eq.trans (s.load_eq_iff _ (by decide) (crc32Final s.crc32).isLt)⟩

/-- Settles O21: neither INIT nor UPDATE writes BUF, so UPDATE reads the bytes of the first state. -/
theorem crc32OfSequenceIsStored : Obligations.Crc32OfSequenceIsStored := by
  intro s d source dest
  have stored (c : Word) (k : Nat) (hk : k < 4) :=
    State.byte_store_inside { s with crc32 := c, dst := d } d.toNat (crc32Final c) hk
  have frame (c : Word) := State.store_sameOutside { s with crc32 := c, dst := d } d.toNat 4 (crc32Final c)
  exact ⟨_, _, _, exec_crc32Init s, exec_crc32Update source, exec_crc32Store dest, rfl, stored _, frame _⟩

/-- Settles O22: the two UPDATEs fold the four zeros and then the frame's other bytes, and no command writes BUF. -/
theorem zeroedFieldChecksum : Obligations.ZeroedFieldChecksum := by
  intro s z f n size zerosInBuf frameInBuf zeros
  have restInBuf : (f + 4).toNat + n.toNat ≤ s.bufSize :=
    (Nat.add_le_add_right (toNat_add_le_add f 4) _).trans frameInBuf
  have zeroBytes : s.bytes z.toNat 4 = [0, 0, 0, 0] := State.bytes_eq_replicate zeros
  have restBytes : s.bytes (f + 4).toNat n.toNat = s.bytes (f.toNat + 4) n.toNat :=
    s.bytes_add (n := 4) (frameInBuf.trans size)
  have folds : crc32Seq (crc32Seq 0xFFFFFFFF (s.bytes z.toNat 4)) (s.bytes (f + 4).toNat n.toNat) =
      crc32Seq 0xFFFFFFFF ([0, 0, 0, 0] ++ s.bytes (f.toNat + 4) n.toNat) := by
    rw [zeroBytes, restBytes, crc32Seq_append]
  exact ⟨_, _, _, exec_crc32Init s, exec_crc32Update zerosInBuf, exec_crc32Update restInBuf,
    congrArg crc32Final folds, fun _ => rfl⟩

/-- Settles O14: INIT makes no check, and CRC32OUT then reads the value of the empty sequence. -/
theorem crc32InitSetsRegister : Obligations.Crc32InitSetsRegister := by
  refine ⟨rfl, fun s => ⟨exec_crc32Init s, crc32Value_nil, fun already => ?_, rfl⟩⟩
  rw [exec_crc32Init, ← already]

/-- Settles O15: the fold of UPDATE, address by address. -/
theorem crc32UpdateFoldsBytes : Obligations.Crc32UpdateFoldsBytes := by
  refine ⟨rfl, fun s => ⟨fun inBuf => ?_, fun beyond => exec_outOfRange rfl beyond⟩⟩
  rw [exec_crc32Update inBuf, crc32Seq_bytes]

end Sys2Proof.Machine
end

section
/-! SUPPORT. The key schedule as a function of the key's bytes, the keystream step entry by entry, and the SC commands
where their checks pass and where they fail: what the statements of 43_stream_cipher.md rest on. -/

namespace Sys2Proof.Machine

/-! ### A swap, entry by entry (00_scope.md R9) -/

theorem SBox.get_swap_left (t : SBox) (a b : Byte) : (t.swap a b).get a = t.get b := by
  rw [SBox.get_swap, if_pos rfl]
  split
  · next same => rw [same]
  · rfl

theorem SBox.get_swap_right (t : SBox) (a b : Byte) : (t.swap a b).get b = t.get a := by
  rw [SBox.get_swap, if_pos rfl]

theorem SBox.get_swap_of_ne (t : SBox) {a b x : Byte} (ha : x ≠ a) (hb : x ≠ b) : (t.swap a b).get x = t.get x := by
  rw [SBox.get_swap, if_neg hb, if_neg ha]

/-- The keystream byte by the entries before the exchange: their sum is the same in either order. -/
theorem prga_snd (c : Keystream) : (prga c).2 =
    (prga c).1.sbox.get (c.sbox.get (c.i + 1) + c.sbox.get (c.j + c.sbox.get (c.i + 1))) := by
  set i := c.i + 1
  set j := c.j + c.sbox.get i
  set t := c.sbox.swap i j
  calc t.get (t.get i + t.get j)
      = t.get (c.sbox.get j + c.sbox.get i) := by rw [SBox.get_swap_left, SBox.get_swap_right]
    _ = t.get (c.sbox.get i + c.sbox.get j) := by rw [BitVec.add_comm]

/-! ### The key schedule (43_stream_cipher.md R161, R162) -/

/-- Step i reads no byte of the key but key[i mod K]. -/
theorem ksaStep_congr {key key' : List Byte} {i : Nat}
    (byte : key.getD (i % key.length) 0 = key'.getD (i % key'.length) 0) (st : SBox × Byte) :
    ksaStep key st i = ksaStep key' st i := by
  simp only [ksaStep, byte]

/-- The 256 steps read key[i mod K] for i = 0, ..., 255 and nothing else of the key. -/
theorem ksa_congr {key key' : List Byte}
    (bytes : ∀ i, i < 256 → key.getD (i % key.length) 0 = key'.getD (i % key'.length) 0) : ksa key = ksa key' := by
  have folds := List.foldl_ext (ksaStep key) (ksaStep key') (SBox.identity, 0) (l := List.range 256)
    fun st i hi => ksaStep_congr (bytes i (List.mem_range.1 hi)) st
  unfold ksa
  rw [folds]

/-- A key of 256 bytes or more is read from its start, without going round. -/
theorem getD_mod_length_take {key : List Byte} {n i : Nat} (long : n ≤ key.length) (hi : i < n) :
    (key.take n).getD (i % (key.take n).length) 0 = key.getD (i % key.length) 0 := by
  rw [List.length_take_of_le long, Nat.mod_eq_of_lt hi, Nat.mod_eq_of_lt (hi.trans_le long), List.getD_eq_getElem?_getD,
    List.getD_eq_getElem?_getD, List.getElem?_take_of_lt hi]

/-! ### The checks of the SC commands (43_stream_cipher.md R164, R165) -/

theorem expectedError_scSched (s : State) : expectedError .scSched s =
    if s.keyLength = 0 ∨ 256 < s.keyLength then some .badKeyLen
    else if s.bufSize < s.keyAddress + s.keyLength then some .range else none := by
  rw [← firstError_commandChecks]
  simp only [commandChecks, firstError_cons, firstError_nil, State.badKeyLength_iff, State.outOfRange_iff]

theorem expectedError_scCrypt (s : State) : expectedError .scCrypt s =
    if s.keyed = false then some .notKeyed
    else if s.bufSize < s.srcAddr + s.length ∨ s.bufSize < s.dstAddr + s.length then some .range else none := by
  rw [← firstError_commandChecks]
  simp only [commandChecks, firstError_cons, firstError_nil, Bool.not_eq_true', State.outOfRange_iff, ite_or]

/-- SC.SCHED with a key that it accepts. -/
theorem exec_scSched {s : State} (nonempty : 1 ≤ s.keyLength) (short : s.keyLength ≤ 256)
    (inBuf : s.keyAddress + s.keyLength ≤ s.bufSize) :
    exec .scSched s = .next (commandEffect .scSched s) := by
  apply exec_ok
  rw [expectedError_scSched, if_neg (by omega), if_neg (by omega)]

/-- SC.CRYPT with a key in force and both ranges in BUF. -/
theorem exec_scCrypt {s : State} (keyed : s.keyed = true) (source : s.srcAddr + s.length ≤ s.bufSize)
    (dest : s.dstAddr + s.length ≤ s.bufSize) : exec .scCrypt s = .next (commandEffect .scCrypt s) := by
  apply exec_ok
  rw [expectedError_scCrypt, if_neg (by simp [keyed]), if_neg (by omega)]

/-! ### What SC.CRYPT writes (43_stream_cipher.md R165) -/

theorem commandEffect_scCrypt_keystream (s : State) :
    (commandEffect .scCrypt s).keystream = keystreamAfter s.length s.keystream := by
  rw [commandEffect_scCrypt]
  rfl

/-- Bytes that do not meet the range written read as before. -/
theorem SameOutside.bytes {s t : State} {a n b m : Nat} (same : SameOutside s t a n) (apart : b + m ≤ a ∨ a + n ≤ b) :
    t.bytes b m = s.bytes b m := by
  apply List.map_congr_left
  intro k hk
  have inside : k < m := List.mem_range.1 hk
  exact same _ (by omega)

/-- A byte of the destination, for every overlap of the two ranges (20_memory.md R81). -/
theorem commandEffect_scCrypt_byte (s : State) {k : Nat} (hk : k < s.length) :
    (commandEffect .scCrypt s).byte (s.dstAddr + k) =
      (if s.srcAddr < s.dstAddr ∧ s.dstAddr ≤ s.srcAddr + k then (commandEffect .scCrypt s).byte (s.srcAddr + k)
       else s.byte (s.srcAddr + k)) ^^^ keystreamByte k s.keystream := by
  rw [commandEffect_scCrypt]
  exact scLoop_byte _ _ _ _ _ _ hk

section NoForwardOverlap
variable {s : State} (noOverlap : ¬(s.srcAddr < s.dstAddr ∧ s.dstAddr < s.srcAddr + s.length))
include noOverlap

/-- Without a forward overlap (70_reset_and_hazards.md R238) every input byte is one of the state before. -/
theorem commandEffect_scCrypt_byte_of_noOverlap {k : Nat} (hk : k < s.length) :
    (commandEffect .scCrypt s).byte (s.dstAddr + k) = s.byte (s.srcAddr + k) ^^^ keystreamByte k s.keystream := by
  rw [commandEffect_scCrypt_byte s hk, if_neg (by omega)]

/-- The output bytes as a function of the input bytes and of S, I and J. -/
theorem commandEffect_scCrypt_bytes_of_noOverlap :
    (commandEffect .scCrypt s).bytes s.dstAddr s.length =
      (s.bytes s.srcAddr s.length).mapIdx fun k x => x ^^^ keystreamByte k s.keystream := by
  apply List.ext_getElem
  · simp
  · intro k hk _
    rw [State.length_bytes] at hk
    rw [List.getElem_mapIdx, State.getElem_bytes, State.getElem_bytes]
    exact commandEffect_scCrypt_byte_of_noOverlap noOverlap hk

end NoForwardOverlap

/-! ### SC.SCHED and then SC.CRYPT (43_stream_cipher.md R167) -/

/-- S, I and J after SC.SCHED with a key (43_stream_cipher.md R164). -/
def Keystream.scheduled (key : List Byte) : Keystream := { sbox := ksa key, i := 0, j := 0 }

/-- What SC.SCHED and then SC.CRYPT from the source address `a` leave of a state: at DST the input XOR the keystream of
the key, elsewhere BUF as it was, and the parameters as they were. -/
structure Enciphered (s u : State) (a : Half) : Prop where
  byte : ∀ k, k < s.length →
    u.byte (s.dstAddr + k) = s.byte (a.toNat + k) ^^^ keystreamByte k (.scheduled s.keyBytes)
  outside : SameOutside s u s.dstAddr s.length
  keystream : u.keystream = keystreamAfter s.length (.scheduled s.keyBytes)
  bufSize : u.bufSize = s.bufSize
  dst : u.dst = s.dst
  len : u.len = s.len
  keyAddr : u.keyAddr = s.keyAddr
  keyLen : u.keyLen = s.keyLen

/-- With both ranges in BUF and no forward overlap, SC.CRYPT after SC.SCHED enciphers. -/
theorem exec_scCrypt_scheduled {s : State} {a : Half} (source : a.toNat + s.length ≤ s.bufSize)
    (dest : s.dstAddr + s.length ≤ s.bufSize) (noOverlap : ¬(a.toNat < s.dstAddr ∧ s.dstAddr < a.toNat + s.length)) :
    ∃ u, exec .scCrypt { commandEffect .scSched s with src := a } = .next u ∧ Enciphered s u a := by
  set t : State := { commandEffect .scSched s with src := a }
  obtain ⟨-, dst, len, keyAddr, keyLen⟩ := commandEffect_operands .scCrypt t (by decide)
  exact ⟨_, exec_scCrypt (s := t) rfl source dest, {
    byte := fun k hk => commandEffect_scCrypt_byte_of_noOverlap (s := t) noOverlap hk
    outside := commandEffect_sameOutside .scCrypt t
    keystream := commandEffect_scCrypt_keystream t
    bufSize := (commandEffect_environment .scCrypt t).1
    dst, len, keyAddr, keyLen }⟩

/-- An output apart from the key leaves its bytes as they were. -/
theorem Enciphered.keyBytes {s u : State} {a : Half} (h : Enciphered s u a)
    (apart : s.keyAddress + s.keyLength ≤ s.dstAddr ∨ s.dstAddr + s.length ≤ s.keyAddress) :
    u.keyBytes = s.keyBytes := by
  rw [State.keyBytes, State.keyAddress, State.keyLength, h.keyAddr, h.keyLen]
  exact h.outside.bytes apart

/-- Enciphered again in place with the same key, the bytes are those before: each is XORed twice with one keystream
byte. -/
theorem Enciphered.byte_inPlace {s u w : State} {a : Half} (first : Enciphered s u a) (again : Enciphered u w s.dst)
    (sameKey : u.keyBytes = s.keyBytes) {k : Nat} (hk : k < s.length) :
    w.byte (s.dstAddr + k) = s.byte (a.toNat + k) := by
  have second := again.byte k (by rwa [State.length, first.len])
  rw [State.dstAddr, first.dst, first.byte k hk, sameKey] at second
  rw [second, BitVec.xor_assoc, BitVec.xor_self, BitVec.xor_zero]

/-! ### Where a second SC.CRYPT goes on (43_stream_cipher.md R168) -/

/-- The loop from 16-bit sums of addresses: where a sum wraps, there is no byte left to do. -/
theorem scLoop_adjoining (draw : Nat) {a b n k : Half} (source : a.toNat + n.toNat + k.toNat ≤ 65536)
    (dest : b.toNat + n.toNat + k.toNat ≤ 65536) (m : Memory) (c : Keystream) :
    scLoop draw k.toNat (a + n).toNat (b + n).toNat m c =
      scLoop draw k.toNat (a.toNat + n.toNat) (b.toNat + n.toNat) m c := by
  by_cases empty : k.toNat = 0
  · rw [empty, scLoop, scLoop]
  · rw [BitVec.toNat_add_of_lt (by omega), BitVec.toNat_add_of_lt (by omega)]

/-- The effect over n bytes and then over the next m bytes is the effect over n + m bytes. -/
theorem commandEffect_scCrypt_chain (s : State) {n m : Half} (short : n.toNat + m.toNat < 65536)
    (source : s.src.toNat + n.toNat + m.toNat ≤ 65536) (dest : s.dst.toNat + n.toNat + m.toNat ≤ 65536) :
    commandEffect .scCrypt
        { commandEffect .scCrypt { s with len := n } with src := s.src + n, dst := s.dst + n, len := m } =
      { commandEffect .scCrypt { s with len := n + m } with src := s.src + n, dst := s.dst + n, len := m } := by
  have both : (n + m).toNat = n.toNat + m.toNat := BitVec.toNat_add_of_lt short
  have bytes := scLoop_adjoining s.draw source dest (scLoop s.draw n.toNat s.srcAddr s.dstAddr s.buf s.keystream).1
    (keystreamAfter n.toNat s.keystream)
  simp only [commandEffect_scCrypt, State.keystream, State.length, State.srcAddr, State.dstAddr, both, scLoop_add,
    keystreamAfter_add, scLoop_snd] at bytes ⊢
  rw [bytes]

end Sys2Proof.Machine
end

section
/-! PROOFS. The statements of 43_stream_cipher.md. -/

namespace Sys2Proof.Machine

/-- Settles O25: the steps of the key schedule read the key only by i mod K. -/
theorem keyScheduleReadsKeyCyclically : Obligations.KeyScheduleReadsKeyCyclically :=
  ⟨fun _ _ bytes => ksa_congr bytes, fun _ long => ksa_congr fun _ hi => getD_mod_length_take long hi⟩

/-- Settles O26, by the loop of SC.CRYPT byte by byte. -/
theorem scCryptXorsKeystream : Obligations.ScCryptXorsKeystream := by
  refine ⟨rfl, fun s => ⟨fun notKeyed => exec_error ?_, fun keyed beyond => exec_error ?_, fun keyed source dest => ?_⟩⟩
  · rw [expectedError_scCrypt, if_pos notKeyed]
  · rw [expectedError_scCrypt, if_neg (by simp [keyed]), if_pos beyond]
  · exact ⟨_, exec_scCrypt keyed source dest, by rw [commandEffect_scCrypt],
      fun k hk => commandEffect_scCrypt_byte s hk, commandEffect_sameOutside .scCrypt s⟩

/-- Settles O29: all three commands pass their checks, and the loop over n + m bytes is the two loops. -/
theorem scCryptChains : Obligations.ScCryptChains := by
  intro s n m size keyed short source dest
  have keyed' : (commandEffect .scCrypt { s with len := n }).keyed = true := by rwa [commandEffect_scCrypt]
  have size' : (commandEffect .scCrypt { s with len := n }).bufSize = s.bufSize := (commandEffect_environment _ _).1
  have first (a : Half) (inBuf : a.toNat + n.toNat + m.toNat ≤ s.bufSize) : a.toNat + n.toNat ≤ s.bufSize := by omega
  have second (a : Half) (inBuf : a.toNat + n.toNat + m.toNat ≤ s.bufSize) :
      (a + n).toNat + m.toNat ≤ (commandEffect .scCrypt { s with len := n }).bufSize :=
    size' ▸ (Nat.add_le_add_right (toNat_add_le_add a n) _).trans inBuf
  have whole (a : Half) (inBuf : a.toNat + n.toNat + m.toNat ≤ s.bufSize) : a.toNat + (n + m).toNat ≤ s.bufSize := by
    rwa [BitVec.toNat_add_of_lt short, ← Nat.add_assoc]
  exact ⟨_, _, _, exec_scCrypt keyed (first _ source) (first _ dest),
    exec_scCrypt keyed' (second _ source) (second _ dest), exec_scCrypt keyed (whole _ source) (whole _ dest),
    commandEffect_scCrypt_chain s short (source.trans size) (dest.trans size)⟩

/-- Settles O30: the output leaves the key's bytes alone, so both keystreams are the same, and a byte XORed twice with
one keystream byte is the byte again. -/
theorem scCryptIsSelfInverse : Obligations.ScCryptIsSelfInverse := by
  intro s nonempty shortKey keyInBuf source dest noOverlap keyApart
  obtain ⟨u, crypt, first⟩ := exec_scCrypt_scheduled source dest noOverlap
  have sameKey : u.keyBytes = s.keyBytes := first.keyBytes keyApart
  have inPlace : s.dst.toNat + u.length ≤ u.bufSize := by rwa [State.length, first.len, first.bufSize]
  have dest' : u.dstAddr + u.length ≤ u.bufSize := by rwa [State.dstAddr, first.dst]
  have noOverlap' : ¬(s.dst.toNat < u.dstAddr ∧ u.dstAddr < s.dst.toNat + u.length) := by
    rw [State.dstAddr, first.dst]
    omega
  obtain ⟨w, cryptAgain, again⟩ := exec_scCrypt_scheduled inPlace dest' noOverlap'
  have schedAgain : exec .scSched u = .next (commandEffect .scSched u) := by
    apply exec_scSched <;> simpa only [State.keyLength, State.keyAddress, first.keyLen, first.keyAddr, first.bufSize]
  refine ⟨_, u, _, w, exec_scSched nonempty shortKey keyInBuf, crypt, schedAgain, cryptAgain,
    fun k hk => first.byte_inPlace again sameKey hk, ?_⟩
  calc w.keystream = keystreamAfter u.length (.scheduled u.keyBytes) := again.keystream
    _ = keystreamAfter s.length (.scheduled s.keyBytes) := by rw [sameKey, State.length, first.len]
    _ = u.keystream := first.keystream.symm

/-- Settles O31: each result is a function of what the statement names. -/
theorem scCommandsAreDeterministic : Obligations.ScCommandsAreDeterministic := by
  constructor
  · intro s s' t t' ok ok' sameKey e e'
    rw [exec_ok ok] at e
    rw [exec_ok ok'] at e'
    cases e
    cases e'
    simp only [commandEffect_scSched, State.keystream, sameKey, and_self]
  · intro s s' t t' ok ok' sameKeystream sameLen e e'
    rw [exec_ok ok] at e
    rw [exec_ok ok'] at e'
    cases e
    cases e'
    refine ⟨?_, fun noOverlap noOverlap' sameInput => ?_⟩
    · rw [commandEffect_scCrypt_keystream, commandEffect_scCrypt_keystream, sameKeystream, State.length, sameLen]
    · rw [commandEffect_scCrypt_bytes_of_noOverlap noOverlap, commandEffect_scCrypt_bytes_of_noOverlap noOverlap',
        sameInput, sameKeystream]

/-- Settles O24: the two checks in their order, and the schedule of the key's bytes. -/
theorem scSchedBuildsTable : Obligations.ScSchedBuildsTable := by
  refine ⟨rfl, fun s => ⟨fun badLength => exec_error ?_, fun nonempty short beyond => exec_error ?_,
    fun nonempty short inBuf => exec_scSched nonempty short inBuf⟩⟩
  · rw [expectedError_scSched, if_pos badLength]
  · have accepted : ¬(s.keyLength = 0 ∨ 256 < s.keyLength) := not_or.2 ⟨Nat.ne_of_gt nonempty, Nat.not_lt.2 short⟩
    rw [expectedError_scSched, if_neg accepted, if_pos beyond]

/-- Settles O27: the step's table is one swap, read entry by entry. -/
theorem keystreamStepSwapsAndReads : Obligations.KeystreamStepSwapsAndReads := fun c =>
  ⟨rfl, rfl, SBox.get_swap_left _ _ _, SBox.get_swap_right _ _ _, fun _ => SBox.get_swap_of_ne _, prga_snd c⟩

end Sys2Proof.Machine
end

section
/-! SUPPORT. The key integer and its rotations, and the RX commands where their checks pass and where they fail: what
the statements of 44_rotating_xor.md rest on. -/

namespace Sys2Proof.Machine

/-! ### The key integer (44_rotating_xor.md R180) -/

/-- Counted from bit 0 up, the bytes of the key integer are the key's bytes from its last one on: the layout of
`extract_fourBytes`, read the other way round. -/
theorem extract_keyInteger (b : Nat → Byte) {k : Nat} (hk : k < 4) :
    (keyInteger (b 0) (b 1) (b 2) (b 3)).extractLsb' (24 - 8 * k) 8 = b k := by
  have reversed_or (p q r t : Word) : p ||| q ||| r ||| t = t ||| r ||| q ||| p := by ac_rfl
  have reversed : keyInteger (b 0) (b 1) (b 2) (b 3) =
      (b 3).zeroExtend 32 ||| ((b 2).zeroExtend 32) <<< 8 ||| ((b 1).zeroExtend 32) <<< 16 |||
        ((b 0).zeroExtend 32) <<< 24 :=
    reversed_or _ _ _ _
  have position : 24 - 8 * k = 8 * (3 - k) := by omega
  rw [reversed, position]
  calc _ = b (3 - (3 - k)) := extract_fourBytes (fun n => b (3 - n)) (by omega)
    _ = b k := congrArg b (by omega)

/-! ### Rotations of the key (44_rotating_xor.md R186) -/

theorem rotateLeft_add (v : Word) (n m : Nat) : v.rotateLeft (n + m) = (v.rotateLeft n).rotateLeft m := by
  simp only [← rotl1_iterate, Nat.add_comm n m, Function.iterate_add_apply]

/-- Rotating by 32 returns the key, and so does rotating by any multiple of 32. -/
theorem rotateLeft_of_mod_eq_zero (v : Word) {n : Nat} (period : n % 32 = 0) : v.rotateLeft n = v := by
  rw [← BitVec.rotateLeft_mod_eq_rotateLeft, period, ← rotl1_iterate, Function.iterate_zero_apply]

/-- The byte that byte k of an RX.CRYPT's input is XORed with: byte k mod 4 of the key rotated once for each word
before (44_rotating_xor.md R181, R182). -/
def rxKeyByte (k : Nat) (key : Word) : Byte := (key.rotateLeft (k / 4)).extractLsb' (8 * (k % 4)) 8

/-! ### The checks of RX.CRYPT (44_rotating_xor.md R184) -/

theorem expectedError_rxCrypt (s : State) : expectedError .rxCrypt s =
    if s.length % 4 ≠ 0 then some .badLen
    else if s.bufSize < s.srcAddr + s.length ∨ s.bufSize < s.dstAddr + s.length then some .range else none := by
  rw [← firstError_commandChecks]
  simp only [commandChecks, firstError_cons, firstError_nil, State.badLength_iff, State.outOfRange_iff, ite_or]

/-- RX.CRYPT over whole words with both ranges in BUF. -/
theorem exec_rxCrypt {s : State} (words : s.length % 4 = 0) (source : s.srcAddr + s.length ≤ s.bufSize)
    (dest : s.dstAddr + s.length ≤ s.bufSize) : exec .rxCrypt s = .next (commandEffect .rxCrypt s) := by
  apply exec_ok
  rw [expectedError_rxCrypt, if_neg (not_not.2 words), if_neg (by omega)]

/-! ### What RX.CRYPT writes (44_rotating_xor.md R184) -/

theorem commandEffect_rxCrypt_rxKey (s : State) :
    (commandEffect .rxCrypt s).rxKey = s.rxKey.rotateLeft (s.length / 4) := by
  rw [commandEffect_rxCrypt]

/-- A byte of a word of the destination, for every overlap of the two ranges (20_memory.md R81). -/
theorem commandEffect_rxCrypt_byte (s : State) {n b : Nat} (hn : n < s.length / 4) (hb : b < 4) :
    (commandEffect .rxCrypt s).byte (s.dstAddr + 4 * n + b) =
      (if s.dstAddr ≤ s.srcAddr + 4 * n + b ∧ s.srcAddr + 4 * n + b < s.dstAddr + 4 * n
       then (commandEffect .rxCrypt s).byte (s.srcAddr + 4 * n + b) else s.byte (s.srcAddr + 4 * n + b)) ^^^
        (s.rxKey.rotateLeft n).extractLsb' (8 * b) 8 := by
  rw [commandEffect_rxCrypt, ← rotl1_iterate n]
  exact rxLoop_byte _ _ _ _ _ _ hn hb

/-- Without a forward overlap (70_reset_and_hazards.md R238) every input byte is one of the state before. -/
theorem commandEffect_rxCrypt_byte_of_noOverlap {s : State} (words : s.length % 4 = 0)
    (noOverlap : ¬(s.srcAddr < s.dstAddr ∧ s.dstAddr < s.srcAddr + s.length)) {k : Nat} (hk : k < s.length) :
    (commandEffect .rxCrypt s).byte (s.dstAddr + k) = s.byte (s.srcAddr + k) ^^^ rxKeyByte k s.rxKey := by
  have byte := commandEffect_rxCrypt_byte s (n := k / 4) (b := k % 4) (by omega) (by omega)
  rw [if_neg (by omega), Nat.add_assoc, Nat.add_assoc, Nat.div_add_mod] at byte
  exact byte

/-! ### Where a second RX.CRYPT goes on (44_rotating_xor.md R186) -/

/-- Both parts of a range in BUF, and the whole, in the 16-bit arithmetic of the operands. -/
theorem adjoining_inRange {a n m : Half} {size : Nat} (short : n.toNat + m.toNat < 65536)
    (inBuf : a.toNat + n.toNat + m.toNat ≤ size) :
    a.toNat + n.toNat ≤ size ∧ (a + n).toNat + m.toNat ≤ size ∧ a.toNat + (n + m).toNat ≤ size := by
  have wrapped := toNat_add_le_add a n
  rw [BitVec.toNat_add_of_lt short]
  omega

/-- The loop from 16-bit sums of addresses: where a sum wraps, there is no word left to do. -/
theorem rxLoop_adjoining (draw : Nat) {a b n k : Half} (source : a.toNat + n.toNat + k.toNat ≤ 65536)
    (dest : b.toNat + n.toNat + k.toNat ≤ 65536) (m : Memory) (key : Word) :
    rxLoop draw (k.toNat / 4) (a + n).toNat (b + n).toNat m key =
      rxLoop draw (k.toNat / 4) (a.toNat + n.toNat) (b.toNat + n.toNat) m key := by
  by_cases empty : k.toNat = 0
  · rw [empty, Nat.zero_div, rxLoop, rxLoop]
  · rw [BitVec.toNat_add_of_lt (by omega), BitVec.toNat_add_of_lt (by omega)]

/-- The effect over n bytes and then over the next m bytes is the effect over n + m bytes, where the first n are whole
words. -/
theorem commandEffect_rxCrypt_chain (s : State) {n m : Half} (words : n.toNat % 4 = 0)
    (short : n.toNat + m.toNat < 65536) (source : s.src.toNat + n.toNat + m.toNat ≤ 65536)
    (dest : s.dst.toNat + n.toNat + m.toNat ≤ 65536) :
    commandEffect .rxCrypt
        { commandEffect .rxCrypt { s with len := n } with src := s.src + n, dst := s.dst + n, len := m } =
      { commandEffect .rxCrypt { s with len := n + m } with src := s.src + n, dst := s.dst + n, len := m } := by
  have both : (n + m).toNat / 4 = n.toNat / 4 + m.toNat / 4 := by
    rw [BitVec.toNat_add_of_lt short, Nat.add_div_of_dvd_right (Nat.dvd_of_mod_eq_zero words)]
  have whole : 4 * (n.toNat / 4) = n.toNat := Nat.mul_div_cancel' (Nat.dvd_of_mod_eq_zero words)
  have bytes := rxLoop_adjoining s.draw source dest
    (rxLoop s.draw (n.toNat / 4) s.srcAddr s.dstAddr s.buf s.rxKey).1 (s.rxKey.rotateLeft (n.toNat / 4))
  simp only [commandEffect_rxCrypt, State.length, State.srcAddr, State.dstAddr, both, rxLoop_add, rxLoop_snd,
    rotl1_iterate, rotateLeft_add, whole] at bytes ⊢
  rw [bytes]

end Sys2Proof.Machine
end

section
/-! PROOFS. The statements of 44_rotating_xor.md. -/

namespace Sys2Proof.Machine

/-- Settles O33, by the loop of RX.CRYPT word by word. -/
theorem rxCryptXorsRotatedKey : Obligations.RxCryptXorsRotatedKey := by
  refine ⟨rfl, fun s => ⟨fun badLength => exec_error ?_, fun words beyond => exec_error ?_, fun words source dest => ?_⟩⟩
  · rw [expectedError_rxCrypt, if_pos badLength]
  · rw [expectedError_rxCrypt, if_neg (not_not.2 words), if_pos beyond]
  · exact ⟨_, exec_rxCrypt words source dest, by rw [commandEffect_rxCrypt],
      fun n b hn hb => commandEffect_rxCrypt_byte s hn hb, commandEffect_sameOutside .rxCrypt s⟩

/-- Settles O34: all three commands pass their checks, and the loop over n + m bytes is the two loops. -/
theorem rxCryptChains : Obligations.RxCryptChains := by
  intro s n m size firstWords secondWords short source dest
  have size' : (commandEffect .rxCrypt { s with len := n }).bufSize = s.bufSize := (commandEffect_environment _ _).1
  have wholeWords : (n + m).toNat % 4 = 0 := by rw [BitVec.toNat_add_of_lt short]; omega
  obtain ⟨source₁, source₂, source'⟩ := adjoining_inRange short source
  obtain ⟨dest₁, dest₂, dest'⟩ := adjoining_inRange short dest
  exact ⟨_, _, _, exec_rxCrypt firstWords source₁ dest₁,
    exec_rxCrypt secondWords (source₂.trans_eq size'.symm) (dest₂.trans_eq size'.symm),
    exec_rxCrypt wholeWords source' dest',
    commandEffect_rxCrypt_chain s firstWords short (source.trans size) (dest.trans size)⟩

/-- Settles O35: both runs XOR byte k with the same byte of the rotated key, and a byte XORed twice with one byte is the
byte again. -/
theorem rxCryptIsSelfInverse : Obligations.RxCryptIsSelfInverse := by
  intro s words source dest noOverlap
  set t := commandEffect .rxCrypt s with ht
  set v : State := { t with src := s.dst, rxKey := s.rxKey } with hv
  have operands : v.srcAddr = s.dstAddr ∧ v.dstAddr = s.dstAddr ∧ v.length = s.length ∧ v.bufSize = s.bufSize := by
    simp [hv, ht]
  obtain ⟨src, dst, len, size⟩ := operands
  have words' : v.length % 4 = 0 := by rwa [len]
  have inPlace : ¬(v.srcAddr < v.dstAddr ∧ v.dstAddr < v.srcAddr + v.length) := by rw [src, dst]; omega
  refine ⟨t, commandEffect .rxCrypt v, exec_rxCrypt words source dest,
    exec_rxCrypt words' (by rwa [src, len, size]) (by rwa [dst, len, size]), fun k hk => ?_, ?_⟩
  · calc (commandEffect .rxCrypt v).byte (s.dstAddr + k)
        = (commandEffect .rxCrypt v).byte (v.dstAddr + k) := by rw [dst]
      _ = v.byte (v.srcAddr + k) ^^^ rxKeyByte k v.rxKey :=
          commandEffect_rxCrypt_byte_of_noOverlap words' inPlace (by rwa [len])
      _ = t.byte (s.dstAddr + k) ^^^ rxKeyByte k s.rxKey := by rw [src]; rfl
      _ = s.byte (s.srcAddr + k) ^^^ rxKeyByte k s.rxKey ^^^ rxKeyByte k s.rxKey := by
          rw [ht, commandEffect_rxCrypt_byte_of_noOverlap words noOverlap hk]
      _ = s.byte (s.srcAddr + k) := by rw [BitVec.xor_assoc, BitVec.xor_self, BitVec.xor_zero]
  · rw [commandEffect_rxCrypt_rxKey, commandEffect_rxCrypt_rxKey, len]

/-- Settles O36: LEN/4 is a multiple of 32, the period of the rotation. -/
theorem rxKeyHasPeriod32 : Obligations.RxKeyHasPeriod32 := by
  intro s period source dest
  refine ⟨_, exec_rxCrypt (by omega) source dest, ?_⟩
  rw [commandEffect_rxCrypt_rxKey, rotateLeft_of_mod_eq_zero _ (by omega)]

/-- Settles O32: the key integer's bytes, and the host write of RXKEY at its offset. -/
theorem rxLoadkeyReadsBigEndian : Obligations.RxLoadkeyReadsBigEndian := by
  refine ⟨rfl, fun s => ⟨fun inBuf => ?_, fun beyond => exec_outOfRange rfl beyond⟩⟩
  exact ⟨_, exec_inRange rfl inBuf, serve_write_offset (r := .rxKey) rfl _ s,
    fun k hk => extract_keyInteger (fun j => s.byte (s.keyAddress + j)) hk⟩

end Sys2Proof.Machine
end

section
/-! SUPPORT. The error record (60_exceptions.md R201): what a command does to a recorded error, and that no command
reads the record to decide what else it does. -/

namespace Sys2Proof.Machine

/-! ### What a command does to a recorded error -/

/-- Only CLRSTAT and SRESET clear the error record, and a command that completes writes it in no other way. -/
theorem commandEffect_errorRecord {i : Instr} (s : State) (notClrstat : i ≠ .clrstat) (notSreset : i ≠ .sreset) :
    (commandEffect i s).err = s.err ∧ (commandEffect i s).errCode = s.errCode ∧
      (commandEffect i s).errOp = s.errOp := by
  have keeps : ¬(i = .clrstat ∨ i = .sreset) := not_or.2 ⟨notClrstat, notSreset⟩
  rw [commandEffect_err, commandEffect_errCode, commandEffect_errOp, if_neg keeps, if_neg keeps, if_neg keeps]
  exact ⟨rfl, rfl, rfl⟩

/-- An illegal word issued while ERR is 1 has no effect at all. -/
theorem issueCommand_illegal_again {v : Word} {s : State} (illegal : ∀ i, decode v ≠ .ok i) (recorded : s.err = true) :
    issueCommand v s = .next s := by
  cases h : decode v with
  | ok i => exact absurd h (illegal i)
  | error e => rw [issueCommand_illegal s h, raiseError_again _ _ recorded]

/-! ### States that differ only in the error record -/

/-- States that differ at most in the error record differ by a write of it. -/
theorem sameButError_iff {s t : State} :
    SameButError s t ↔ ∃ err code op, t = (s.setErr err).setErrRecord code op :=
  ⟨fun same => ⟨t.err, t.errCode, t.errOp, same⟩, by rintro ⟨err, code, op, rfl⟩; rfl⟩

section Record
variable (s : State) (err : Bool) (code : ErrorCode) (op : Byte)

/-- No check looks at the error record. -/
theorem expectedError_setErrRecord (i : Instr) :
    expectedError i ((s.setErr err).setErrRecord code op) = expectedError i s := by cases i <;> rfl

/-- No effect reads the error record: CLRSTAT and SRESET overwrite it, and every other effect passes it on. -/
theorem commandEffect_setErrRecord (i : Instr) :
    SameButError (commandEffect i s) (commandEffect i ((s.setErr err).setErrRecord code op)) := by
  cases i with
  | sreset => rw [commandEffect_sreset, commandEffect_sreset]; rfl
  | scSched => rw [commandEffect_scSched, commandEffect_scSched]; rfl
  | scCrypt => rw [commandEffect_scCrypt, commandEffect_scCrypt]; rfl
  | rxCrypt => rw [commandEffect_rxCrypt, commandEffect_rxCrypt]; rfl
  | nop | clrstat | crc16Init | crc16Update | crc16Store | crc16Check | crc32Init | crc32Update | crc32Store
  | crc32Check | rxLoadkey => rfl

end Record

/-- From states that differ only in the error record a command fails the same check or completes in both, and answers
states that differ only there. -/
theorem SameButError.exec {s t : State} (same : SameButError s t) (i : Instr) :
    ∃ s' t', exec i s = .next s' ∧ exec i t = .next t' ∧ SameButError s' t' := by
  obtain ⟨err, code, op, rfl⟩ := sameButError_iff.1 same
  have sameChecks := expectedError_setErrRecord s err code op i
  cases h : expectedError i s with
  | none => exact ⟨_, _, exec_ok h, exec_ok (sameChecks.trans h), commandEffect_setErrRecord s err code op i⟩
  | some failed =>
    refine ⟨_, _, exec_error h, exec_error (sameChecks.trans h), ?_⟩
    rw [raiseError_beforeError, raiseError_beforeError]
    rfl

end Sys2Proof.Machine
end

section
/-! PROOFS. The statements of 60_exceptions.md. -/

namespace Sys2Proof.Machine

/-- Settles O37: the checks give the error of the table, and recording it is one equation on the state. -/
theorem failedCommandHasNoPartialEffect : Obligations.FailedCommandHasNoPartialEffect := by
  intro i s code failed
  refine ⟨exec_error failed, fun t e => ?_⟩
  rw [exec_error failed, raiseError_beforeError] at e
  cases e
  exact ⟨rfl, fun first => by simp [first], fun recorded => by simp [recorded]⟩

/-- Settles O38: recording an error again keeps the first, and an effect keeps the record. -/
theorem firstErrorIsKept : Obligations.FirstErrorIsKept := by
  refine ⟨fun i s t recorded notClrstat notSreset e => ?_, fun v s t recorded illegal e => ?_⟩
  · obtain ⟨code, _, rfl⟩ | ⟨_, rfl⟩ := exec_cases e
    · rw [raiseError_beforeError, if_pos recorded, if_pos recorded]
      exact ⟨rfl, rfl, rfl⟩
    · obtain ⟨err, errCode, errOp⟩ := commandEffect_errorRecord s notClrstat notSreset
      exact ⟨err.trans recorded, errCode, errOp⟩
  · rw [issueCommand_illegal_again illegal recorded] at e
    cases e
    rfl

/-- Settles O39: the two states differ only in the error record, and a command keeps that. -/
theorem errDoesNotBlockCommands : Obligations.ErrDoesNotBlockCommands := fun i s err code op =>
  SameButError.exec (s := s) (t := { s with err := err, errCode := code, errOp := op }) rfl i

end Sys2Proof.Machine
end

section
/-! SUPPORT. What a reset leaves (70_reset_and_hazards.md R230), and what every other event leaves of BUF: the draw and
the cells written since power-on (R239). -/

namespace Sys2Proof.Machine

/-! ### The power-on reset -/

/-- BUF after a power-on reset is the draw RESET_BUF. -/
theorem State.powerOn_byte (bufSize draw : Nat) (pending : List BusEvent) (readData : List Word) (a : Nat) :
    (State.powerOn bufSize draw pending readData).byte a = Config.resetBuf draw a :=
  Memory.read_nil draw a

/-- S after a power-on reset is the draw RESET_S. -/
theorem State.powerOn_sbox_get (bufSize draw : Nat) (pending : List BusEvent) (readData : List Word) (k : Byte) :
    (State.powerOn bufSize draw pending readData).sbox.get k = Config.resetS draw k.toNat := by
  simp [State.powerOn, SBox.get]

theorem step_reset {s : State} {rest : List BusEvent} (hp : s.pending = .reset :: rest) :
    step s = .next (State.powerOn s.bufSize (s.draw + 1) rest s.readData) :=
  step_serves hp

/-- The issue of a word, legal or not, leaves all that a reset keeps or counts on from. -/
theorem issueCommand_environment {v : Word} {s t : State} (e : issueCommand v s = .next t) :
    t.bufSize = s.bufSize ∧ t.draw = s.draw ∧ t.pending = s.pending ∧ t.readData = s.readData := by
  cases h : decode v with
  | ok i =>
    rw [issueCommand_legal s h] at e
    exact (commandsOnlyReadOperands i s t e).2
  | error d =>
    rw [issueCommand_illegal s h, raiseError_eq] at e
    cases e
    exact ⟨rfl, rfl, rfl, rfl⟩

/-! ### Cells written since power-on stay listed -/

theorem Memory.read_of_lookup_eq_none {m : Memory} {a : Nat} (draw : Nat) (h : m.lookup a = none) :
    m.read draw a = Config.resetBuf draw a := by
  simp [Memory.read, h]

/-- Every cell that `m` lists, `m'` lists: an address not listed in `m'` is not listed in `m`. -/
def Memory.StaysListed (m m' : Memory) : Prop := ∀ a, m'.lookup a = none → m.lookup a = none

theorem Memory.StaysListed.refl (m : Memory) : m.StaysListed m := fun _ h => h

theorem Memory.StaysListed.trans {m m' m'' : Memory} (first : m.StaysListed m') (second : m'.StaysListed m'') :
    m.StaysListed m'' :=
  fun a h => first a (second a h)

theorem Memory.staysListed_write (m : Memory) (a : Nat) (b : Byte) : m.StaysListed (m.write a b) := by
  intro x unlisted
  by_cases same : x = a
  · rw [same, Memory.lookup_write_same] at unlisted
    cases unlisted
  · rwa [Memory.lookup_write_other m b same] at unlisted

theorem Memory.staysListed_writeLE (m : Memory) (a n : Nat) (v : Word) : m.StaysListed (m.writeLE a n v) := by
  induction n generalizing m a v with
  | zero => exact .refl m
  | succ n ih => exact (m.staysListed_write _ _).trans (ih _ _ _)

theorem scLoop_staysListed (draw n src dst : Nat) (m : Memory) (c : Keystream) :
    m.StaysListed (scLoop draw n src dst m c).1 := by
  induction n generalizing src dst m c with
  | zero => exact .refl m
  | succ n ih => exact (m.staysListed_write _ _).trans (ih _ _ _ _)

theorem rxLoop_staysListed (draw n src dst : Nat) (m : Memory) (key : Word) :
    m.StaysListed (rxLoop draw n src dst m key).1 := by
  induction n generalizing src dst m key with
  | zero => exact .refl m
  | succ n ih => exact (m.staysListed_writeLE _ _ _).trans (ih _ _ _ _)

/-- The commands that write BUF are the two stores and the two ciphers. -/
theorem commandEffect_staysListed (i : Instr) (s : State) : s.buf.StaysListed (commandEffect i s).buf := by
  by_cases unwritten : (commandEffect i s).buf = s.buf
  · rw [unwritten]
    exact .refl _
  · obtain rfl | rfl | rfl | rfl := commandEffect_buf_writers i s unwritten
    · exact Memory.staysListed_writeLE _ _ _ _
    · exact Memory.staysListed_writeLE _ _ _ _
    · rw [commandEffect_scCrypt]
      exact scLoop_staysListed _ _ _ _ _ _
    · rw [commandEffect_rxCrypt]
      exact rxLoop_staysListed _ _ _ _ _ _

theorem issueCommand_staysListed {v : Word} {s t : State} (e : issueCommand v s = .next t) :
    s.buf.StaysListed t.buf := by
  cases h : decode v with
  | ok i =>
    rw [issueCommand_legal s h] at e
    obtain ⟨code, _, rfl⟩ | ⟨_, rfl⟩ := exec_cases e
    · rw [raiseError_beforeError]
      exact .refl _
    · exact commandEffect_staysListed i s
  | error d =>
    rw [issueCommand_illegal s h, raiseError_eq] at e
    cases e
    exact .refl _

/-- Every event but the reset keeps the draw and the cells listed: a read delivers data, and a write issues a command,
stores a register's field, stores bytes of BUF, or is ignored. -/
theorem serve_draw_and_staysListed {event : BusEvent} {s t : State} (e : serve event s = .next t)
    (notReset : event ≠ .reset) : t.draw = s.draw ∧ s.buf.StaysListed t.buf := by
  cases event with
  | read w off =>
    obtain ⟨_, rfl⟩ := serveRead_cases e
    exact ⟨rfl, .refl _⟩
  | write w off v =>
    obtain ⟨_, ⟨_, _, issued⟩ | ⟨_, _, rfl⟩ | ⟨_, rfl⟩ | ⟨_, rfl⟩⟩ := serveWrite_cases e
    · obtain ⟨_, draw, _⟩ := issueCommand_environment issued
      exact ⟨draw, issueCommand_staysListed issued⟩
    · rw [writeRegister_frame]
      exact ⟨rfl, .refl _⟩
    · exact ⟨rfl, Memory.staysListed_writeLE _ _ _ _⟩
    · exact ⟨rfl, .refl _⟩
  | reset => exact absurd rfl notReset

theorem step_draw_and_staysListed {s t : State} (e : step s = .next t) (notReset : s.pending.head? ≠ some .reset) :
    t.draw = s.draw ∧ s.buf.StaysListed t.buf := by
  obtain ⟨_, rfl⟩ | ⟨event, rest, hp, served⟩ := step_cases e
  · exact ⟨rfl, .refl _⟩
  · have notResetEvent : event ≠ .reset := by
      rintro rfl
      exact notReset (congrArg List.head? hp)
    exact serve_draw_and_staysListed (s := s.setPending rest) served notResetEvent

end Sys2Proof.Machine
end

section
/-! PROOFS. The statements of 70_reset_and_hazards.md. -/

namespace Sys2Proof.Machine

/-- Settles O55: a command leaves BUF_SIZE, the draw, what is pending and what was read, and these are all that the
state after a reset is made of. -/
theorem resetAbandonsCommand : Obligations.ResetAbandonsCommand := by
  intro s v rest hp
  obtain ⟨t, issued⟩ := issueCommand_completes v (s.setPending (.reset :: rest))
  obtain ⟨size, draw, pending, readData⟩ := issueCommand_environment issued
  refine ⟨t, (step_commandWrite hp).trans issued, ?_⟩
  rw [step_reset pending, step_reset rfl, size, draw, readData]
  rfl

/-- Settles O56: a step that serves no reset keeps the draw and the cells listed, and an unlisted byte reads as the
draw. -/
theorem unwrittenBytesReadTheDraw : Obligations.UnwrittenBytesReadTheDraw := by
  intro s t e notReset
  obtain ⟨draw, listed⟩ := step_draw_and_staysListed e notReset
  refine ⟨draw, fun a unlistedAfter => ?_⟩
  have unlistedBefore := listed a unlistedAfter
  rw [State.byte, State.byte, draw]
  exact ⟨unlistedBefore, Memory.read_of_lookup_eq_none _ unlistedAfter,
    Memory.read_of_lookup_eq_none _ unlistedBefore⟩

/-- Settles O54: the reset gives the power-on state, and SRESET, which makes no check, gives the same in every field but
BUF, its draw and S. -/
theorem resetInputResetsBlock : Obligations.ResetInputResetsBlock := by
  intro s rest hp
  refine ⟨_, step_reset hp, State.powerOn_byte _ _ _ _, State.powerOn_sbox_get _ _ _ _, ?_⟩
  have noCheck : expectedError .sreset { s with pending := rest } = none := rfl
  rw [exec_ok noCheck, commandEffect_sreset]
  rfl

/-- Settles O57: the state at reset is a power-on state of the default BUF_SIZE, which is a conforming one. -/
theorem invariantAtReset : Obligations.InvariantAtReset := by
  have conforming : Config.conformingBufSize Config.defaultBufSize = true := by decide
  exact State.powerOn_inv conforming 0 [] []

end Sys2Proof.Machine
end
